-- ==== Sys2Proof/Word.lean ====
section
/-! DEFINITION. The word types of the WR2 Manchester frame decoder core (00_scope.md R8, R9). -/

namespace Sys2Proof

/-- One byte of a frame. Bit 7 is the most significant, the one shifted in first (R9). -/
abbrev Byte := BitVec 8

/-- One host register, and one command word: 32 bits (R8, R34, R100). -/
abbrev Word := BitVec 32

/-- A count of microseconds of the `now_us` port: 64 bits (R8, R32). -/
abbrev Micros := BitVec 64

end Sys2Proof
end

