-- ==== Sys2Proof/Config.lean ====
section
/-! DEFINITION. What the build fixes (00_scope.md R7) and what the environment supplies (10_state.md R30 to R32).
The OPEN parameters are constants without a body: nothing can be proved of their values but what their types say. -/

namespace Sys2Proof

/-! ### The parameters with a value (R7) -/

/-- `P_SHORT_LEN`: the bytes of a short-family frame. -/
def Config.shortLen : Nat := 7

/-- `P_LONG_LEN`: the bytes of a long-family frame. -/
def Config.longLen : Nat := 16

/-- `P_CAPACITY`: the bytes RawFrame can hold. -/
def Config.capacity : Nat := 16

/-- `P_SHORT_SIG`: the type byte of the short family (R190). -/
def Config.shortSig : Byte := 0x45

/-- `P_CHK_TAP`: the feedback tap of the short checksum (R198). -/
def Config.chkTap : Byte := 0x18

/-- `P_TEMP_OFFSET`: subtracted from the raw temperature (R195). -/
def Config.tempOffset : BitVec 16 := 400

/-- `P_HUM_MAX`: the largest humidity the short decoder accepts (R197). -/
def Config.humMax : Byte := 100

/-- `P_CRC_SEED`: the first value of the long family's CRC (R223). -/
def Config.crcSeed : Byte := 0xC0

/-! ### The OPEN parameters (R7) -/

/-- The typed fields of the long family's payload, in the source's order (R111, R227). The CRC byte P[13] is none of
them: its place is fixed by R224. -/
inductive LongField where
  | deviceType | serialFragment | flags | averageWind | gustWind | windDirection | rainfall | secondFlags
  | temperature | humidity | lightLevel | uvIndex
  deriving DecidableEq, Repr

/-- The fields in the source's order (R111, R227). -/
def LongField.inOrder : List LongField :=
  [.deviceType, .serialFragment, .flags, .averageWind, .gustWind, .windDirection, .rainfall, .secondFlags,
    .temperature, .humidity, .lightLevel, .uvIndex]

/-- `P_LONG_LAYOUT` (R227). Bit number `8 j + i` is bit `i` of payload byte `P[j]`, with `j` in 0..12. -/
structure LongLayout where
  /-- The set of bits of each field, listed from its most significant bit to its least. -/
  bits : LongField → List (Fin 104)
  /-- The battery-low bit, one of the flag bits. -/
  batteryLow : Fin 104
  deriving Inhabited

/-- The OPEN parameters a step of the block reads. The block's operations take them as an argument (R7: "A model takes
each OPEN value as an argument; it must not assume one"). -/
structure Params where
  /-- `P_SHORT_DELAY_US`, about a quarter of a bit period (R132). -/
  shortDelayUs : Nat
  /-- `P_LONG_DELAY_US`, about half a bit period (R133). -/
  longDelayUs : Nat
  /-- `P_HEADER_THRESHOLD`, in 1..255 (R150). -/
  headerThreshold : Byte
  /-- `P_LONG_SIG`, not 0x45 (R172). -/
  longSig : Byte
  /-- `P_CHK_MASK_SEED` (R198). `P_CHK_ACC_SEED` follows from it. -/
  chkMaskSeed : Byte
  /-- `P_CRC_TABLE` (R223). -/
  crcTable : Byte → Byte

/-- `P_SHORT_DELAY_US`, OPEN (D12). -/
opaque Config.shortDelayUs : Nat

/-- `P_LONG_DELAY_US`, OPEN (D12). -/
opaque Config.longDelayUs : Nat

/-- `P_HEADER_THRESHOLD` less one, OPEN: the threshold is any value of 1..255 (D13). -/
opaque Config.headerThresholdLessOne : Fin 255

/-- Which of the 255 values other than 0x45 is `P_LONG_SIG`, OPEN (D18). -/
opaque Config.longSigChoice : Fin 255

/-- `P_CHK_MASK_SEED`, OPEN: any byte, the candidates 0x64 and 0x7C among them (D21). -/
opaque Config.chkMaskSeed : Byte

/-- `P_CRC_TABLE`, OPEN: any function from bytes to bytes (D25). -/
opaque Config.crcTable : Byte → Byte

/-- A choice of `P_LONG_LAYOUT`, OPEN (D26): `Config.longLayout` is this one where it is what R227 settles. -/
opaque Config.longLayoutChoice : LongLayout

/-- `P_BASE`, OPEN: the host address of register offset 0x00 (R89, D3). -/
opaque Config.base : Nat

/-- The byte other than 0x45 that a choice of 255 names: the choices below 0x45 name themselves, the rest name the
next byte. -/
def Config.byteOtherThanShortSig (n : Fin 255) : Byte :=
  if n.val < 0x45 then BitVec.ofNat 8 n.val else BitVec.ofNat 8 (n.val + 1)

/-- The parameters of this block. -/
def Config.params : Params where
  shortDelayUs := Config.shortDelayUs
  longDelayUs := Config.longDelayUs
  headerThreshold := BitVec.ofNat 8 (Config.headerThresholdLessOne.val + 1)
  longSig := Config.byteOtherThanShortSig Config.longSigChoice
  chkMaskSeed := Config.chkMaskSeed
  crcTable := Config.crcTable

/-! ### The environment's inputs -/

/-- A host access to the register window: `bus_we`, `bus_addr[5:0]`, `bus_size`, `bus_wdata[31:0]` (R30, R80). -/
structure BusRequest where
  /-- 1 for a write. -/
  we : Bool
  /-- The byte offset in the window. -/
  addr : BitVec 6
  /-- The number of bytes. -/
  size : Nat
  /-- The word written, unused by a read. -/
  wdata : Word
  deriving DecidableEq, Repr, Inhabited

/-- What happens next at the ports. Every interleaving of host accesses, block steps, time and reset is a list of these
(R12, I22). -/
inductive Event where
  /-- The host makes one access. -/
  | bus (r : BusRequest)
  /-- The block takes its enabled step, if it has one. `rx` is the fresh draw the step's `Sample()` returns (R31). -/
  | block (rx : Bool)
  /-- `now_us` goes forward to `t` (R32). -/
  | time (t : Micros)
  /-- The `rst` input is driven to `level` (R340). -/
  | rst (level : Bool)
  deriving DecidableEq, Repr, Inhabited

/-- FREE VALUE: the `n`th event of the environment after the events that State lists are used up. -/
opaque Config.environment : Nat → Event

end Sys2Proof
end

