-- ==== Sys2Proof/Syntax.lean ====
section
/-! DEFINITION. The host commands, one constructor per row of spec/opcode_table.json (30_encoding.md R101). -/

namespace Sys2Proof

/-- A host command. START_SESSION carries the three flags of its word (R102). The other commands have no operands, and
the ignored bits of a word (R103) are no operands either. -/
inductive Instr where
  /-- NOP, OP = 0x0 (R280). -/
  | nop
  /-- START_SESSION, OP = 0x1: `S`, `L` and `POL` (R281). -/
  | startSession (acceptShort acceptLong polarity : Bool)
  /-- DECODE_ONCE, OP = 0x2 (R282). -/
  | decodeOnce
  /-- SNAPSHOT, OP = 0x3 (R283). -/
  | snapshot
  /-- REINIT, OP = 0x4 (R284). -/
  | reinit
  /-- The reserved opcode 0x5 (R285). -/
  | reserved5
  /-- The reserved opcode 0x6 (R285). -/
  | reserved6
  /-- The reserved opcode 0x7 (R285). -/
  | reserved7
  /-- The reserved opcode 0x8 (R285). -/
  | reserved8
  /-- The reserved opcode 0x9 (R285). -/
  | reserved9
  /-- The reserved opcode 0xA (R285). -/
  | reservedA
  /-- The reserved opcode 0xB (R285). -/
  | reservedB
  /-- The reserved opcode 0xC (R285). -/
  | reservedC
  /-- The reserved opcode 0xD (R285). -/
  | reservedD
  /-- The reserved opcode 0xE (R285). -/
  | reservedE
  /-- The reserved opcode 0xF (R285). -/
  | reservedF
  deriving DecidableEq, Repr

end Sys2Proof
end

