-- ==== Sys2Proof/WellFormed.lean ====
section
/-! DEFINITION. Well-formedness: of commands (every term is well formed, R100) and of the build's parameters (R7). -/

namespace Sys2Proof

/-- A command is well formed whatever its operands are: each operand is one bit taken as is (R102), and "Every 32-bit
word decodes to exactly one row" (R100), the reserved rows included. -/
def Instr.wf : Instr → Bool
  | .nop | .startSession _ _ _ | .decodeOnce | .snapshot | .reinit => true
  | .reserved5 | .reserved6 | .reserved7 | .reserved8 | .reserved9 | .reservedA | .reservedB | .reservedC
  | .reservedD | .reservedE | .reservedF => true

/-- What R7 asks of the OPEN parameters: the threshold is in 1..255 and the long signature is not 0x45. -/
def Params.wf (p : Params) : Bool :=
  p.headerThreshold != 0 && p.longSig != Config.shortSig

/-! ### The long family's layout (R227) -/

/-- When a bit is sent: the payload goes out byte by byte, each most significant bit first (R86). -/
def sentAt (n : Fin 104) : Nat := 8 * (n.val / 8) + (7 - n.val % 8)

/-- When the last bit of a field is sent. -/
def lastSentAt (bits : List (Fin 104)) : Nat := bits.foldl (fun latest n => max latest (sentAt n)) 0

/-- The widths that the source gives: of the light level, 16 bits and one more. -/
def LongLayout.widths (l : LongLayout) : Bool :=
  (l.bits .deviceType).length == 4 && (l.bits .rainfall).length == 16 && (l.bits .secondFlags).length == 8 &&
    (l.bits .temperature).length == 12 && (l.bits .humidity).length == 8 && (l.bits .lightLevel).length == 17 &&
    (l.bits .uvIndex).length == 8

/-- Each field is a set of bits, and not the empty one. -/
def LongLayout.sets (l : LongLayout) : Bool :=
  LongField.inOrder.all fun f => decide (l.bits f).Nodup && !(l.bits f).isEmpty

/-- The device/type nibble is "the first field": sent before every bit of every other field. The others end in the
source's order. -/
def LongLayout.ordered (l : LongLayout) : Bool :=
  decide ((LongField.inOrder.map fun f => lastSentAt (l.bits f)).Pairwise (· < ·)) &&
    LongField.inOrder.all fun f =>
      f == .deviceType || (l.bits f).all fun n => decide (lastSentAt (l.bits .deviceType) < sentAt n)

/-- The flag bits include the battery-low bit and the high bits of both wind speeds, and the light level's high bit is
one of the flags of either flags field. -/
def LongLayout.flagged (l : LongLayout) : Bool :=
  decide (l.batteryLow ∈ l.bits .flags) && (l.bits .averageWind).head?.any (· ∈ l.bits .flags) &&
    (l.bits .gustWind).head?.any (· ∈ l.bits .flags) &&
    (l.bits .lightLevel).head?.any (· ∈ l.bits .flags ++ l.bits .secondFlags)

/-- What the source settles about `P_LONG_LAYOUT` (R227). -/
def longLayoutWf (l : LongLayout) : Bool := l.widths && l.sets && l.ordered && l.flagged

/-- `len` bits in the order in which they are sent, from the one sent at `start`. -/
def sentRun (start len : Nat) : List (Fin 104) :=
  (List.range len).map fun k => Fin.ofNat 104 (8 * ((start + k) / 8) + (7 - (start + k) % 8))

/-- A layout that is what R227 settles: it stands in for a choice that is not, and is no value of the parameter. -/
def sampleLayout : LongLayout where
  bits
    | .deviceType => sentRun 0 4
    | .serialFragment => sentRun 4 4
    | .flags => sentRun 8 8
    | .averageWind => sentRun 9 1 ++ sentRun 16 8
    | .gustWind => sentRun 10 1 ++ sentRun 24 8
    | .windDirection => sentRun 32 8
    | .rainfall => sentRun 40 16
    | .secondFlags => sentRun 56 8
    | .temperature => sentRun 60 12
    | .humidity => sentRun 72 8
    | .lightLevel => sentRun 56 1 ++ sentRun 80 16
    | .uvIndex => sentRun 96 8
  batteryLow := 15

/-- `P_LONG_LAYOUT`, OPEN: any layout that is what R227 settles. No rule of the block depends on it. -/
def Config.longLayout : LongLayout :=
  if longLayoutWf Config.longLayoutChoice then Config.longLayoutChoice else sampleLayout

end Sys2Proof
end

