-- ==== Sys2Proof/Decode.lean ====
section
/-! DEFINITION. The command word (30_encoding.md R100 to R103): decoder, then encoder. -/

namespace Sys2Proof

/-- Decode one command word. `w[3:0]` alone selects the command; START_SESSION takes `w[8]`, `w[9]`, `w[10]`; every
other bit is ignored (R100 to R103). -/
def decode (w : Word) : Instr :=
  match (w.extractLsb' 0 4).toNat with
  | 0x0 => .nop
  | 0x1 => .startSession (w.getLsbD 8) (w.getLsbD 9) (w.getLsbD 10)
  | 0x2 => .decodeOnce
  | 0x3 => .snapshot
  | 0x4 => .reinit
  | 0x5 => .reserved5
  | 0x6 => .reserved6
  | 0x7 => .reserved7
  | 0x8 => .reserved8
  | 0x9 => .reserved9
  | 0xA => .reservedA
  | 0xB => .reservedB
  | 0xC => .reservedC
  | 0xD => .reservedD
  | 0xE => .reservedE
  | _ => .reservedF

/-- Why a list of bytes holds no command. -/
inductive DecodeReject where
  /-- Fewer than the four bytes of a command word (R114). -/
  | truncated
  deriving DecidableEq, Repr

/-- A word of four bytes, the lowest-numbered first and least significant (R85). -/
def wordOfBytes (b0 b1 b2 b3 : Byte) : Word := b3 ++ b2 ++ b1 ++ b0

/-- Decode the command word at the head of a list of bytes, and give the rest. Every command is one 32-bit word (R114),
and every word is a command (R100), so only a short list is rejected. -/
def decodeBytes : List Byte → Except DecodeReject (Instr × List Byte)
  | b0 :: b1 :: b2 :: b3 :: rest => .ok (decode (wordOfBytes b0 b1 b2 b3), rest)
  | _ => .error .truncated

/-- The four bytes of a word, least significant first (R85). -/
def bytesOfWord (w : Word) : List Byte :=
  [w.extractLsb' 0 8, w.extractLsb' 8 8, w.extractLsb' 16 8, w.extractLsb' 24 8]

/-- The command word whose low `nbits` bits are `w`, every higher bit 0. -/
def tableWord (nbits w : Nat) : Word := BitVec.ofNat 32 (w % 2 ^ nbits)

/-- The command that a word of the opcode table decodes to. -/
def decodeTableWord (nbits w : Nat) : Option Instr :=
  match decodeBytes (bytesOfWord (tableWord nbits w)) with
  | .ok (i, _) => some i
  | .error _ => none

/-- The OP field of a command (R101). -/
def Instr.opcode : Instr → BitVec 4
  | .nop => 0x0
  | .startSession _ _ _ => 0x1
  | .decodeOnce => 0x2
  | .snapshot => 0x3
  | .reinit => 0x4
  | .reserved5 => 0x5
  | .reserved6 => 0x6
  | .reserved7 => 0x7
  | .reserved8 => 0x8
  | .reserved9 => 0x9
  | .reservedA => 0xA
  | .reservedB => 0xB
  | .reservedC => 0xC
  | .reservedD => 0xD
  | .reservedE => 0xE
  | .reservedF => 0xF

/-- A command word from its fields: `POL` at bit 10, `L` at 9, `S` at 8, `OP` at 3:0, and 0 in the ignored bits, as R103
tells software to write them (R100). -/
def commandWord (pol l s : Bool) (op : BitVec 4) : Word :=
  0#21 ++ BitVec.ofBool pol ++ BitVec.ofBool l ++ BitVec.ofBool s ++ 0#4 ++ op

/-- The command word of a command (R100, R101). -/
def encode (i : Instr) : Word :=
  match i with
  | .startSession s l pol => commandWord pol l s i.opcode
  | .nop | .decodeOnce | .snapshot | .reinit | .reserved5 | .reserved6 | .reserved7 | .reserved8 | .reserved9
  | .reservedA | .reservedB | .reservedC | .reservedD | .reservedE | .reservedF =>
    commandWord false false false i.opcode

/-- The bytes of a command word, least significant first (R85). -/
def encodeBytes (i : Instr) : List Byte := bytesOfWord (encode i)

end Sys2Proof
end

