-- ==== Sys2Proof/Machine/Block.lean ====
section
/-! DEFINITION. What the block holds (10_state.md R34 to R63) and what it holds after reset (R66) and at the start of an
attempt (R68). -/

namespace Sys2Proof.Machine

/-! ### The parts of the block's state -/

/-- The controller states (R51). The encodings of STATUS.STATE are in Flags.lean (R104). -/
inductive CtlState where
  | idle | searching | receiving | decoding | done
  deriving DecidableEq, Repr

/-- The phases of the bit recovery engine (R57). -/
inductive Phase where
  | waitLevel | waitShort | waitLong
  deriving DecidableEq, Repr

/-- `s.target`, one of 7 or 16 (R61). -/
inductive Target where
  | short | long
  deriving DecidableEq, Repr

/-- STATUS.RESULT_KIND (R105). `decodeError` is the reserved value 3, never produced (R317). -/
inductive ResultKind where
  | none | thermoHygro | weatherStation | decodeError | timeout | misuse
  deriving DecidableEq, Repr

/-- STATUS.MISUSE_CAUSE (R105). -/
inductive MisuseCause where
  | none | noSession | noFamily
  deriving DecidableEq, Repr

/-- The attempt outcomes (R311). No register holds one. -/
inductive AttemptOutcome where
  | waveformViolation | synchronizationFailure | checksumMismatch | crcMismatch | unrecognizedFamily | rangeViolation
  deriving DecidableEq, Repr

/-- The session configuration (R50). SESSION and SESSION_DEADLINE are this, read back (R37, R38). -/
structure Session where
  /-- `s.cfg_valid`, SESSION.CONFIGURED. -/
  cfgValid : Bool
  /-- `s.acc_short`, SESSION.ACCEPT_SHORT. -/
  accShort : Bool
  /-- `s.acc_long`, SESSION.ACCEPT_LONG. -/
  accLong : Bool
  /-- `s.pol`, SESSION.POLARITY: 0 is RisingIsOne, 1 is FallingIsOne (R106). -/
  pol : Bool
  /-- `s.dl_ms`, SESSION_DEADLINE. -/
  dlMs : Word
  deriving DecidableEq, Repr

/-- RecoveryState: the bit recovery engine and the header synchronizer (R52 to R57). -/
structure Recovery where
  /-- `s.E` (R52), the line level awaited. -/
  expected : Bool
  /-- `s.in_pre` (R53). -/
  inPre : Bool
  /-- `s.run` (R54), 8 bits. -/
  run : Byte
  /-- `s.saw0` (R55). -/
  saw0 : Bool
  /-- `s.err` (R56). -/
  err : Bool
  /-- `s.ph` (R57). -/
  ph : Phase
  /-- `s.t_ref` (R57), 64 bits. -/
  tRef : Micros
  deriving DecidableEq, Repr

/-- RawFrame and the partial byte (R58 to R61). -/
structure RawFrame where
  /-- `raw[0..15]` (R58). -/
  raw : Vector Byte 16
  /-- `s.filled` (R59), 5 bits. -/
  filled : BitVec 5
  /-- `s.acc` (R60), 8 bits. -/
  acc : Byte
  /-- `s.nb` (R60), 3 bits. -/
  nb : BitVec 3
  /-- `s.target` (R61). -/
  target : Target
  /-- `s.fam_decided` (R61). -/
  famDecided : Bool
  deriving DecidableEq, Repr

/-- Three 32-bit counters: the live session counters (R62), and their snapshot (R44). -/
structure Counters where
  /-- `s.cnt_h` headers found, or CNT_HEADERS. -/
  headers : Word
  /-- `s.cnt_s` thermo-hygrometer frames accepted, or CNT_SHORT. -/
  short : Word
  /-- `s.cnt_l` weather-station frames accepted, or CNT_LONG. -/
  long : Word
  deriving DecidableEq, Repr

/-- The result latch: the registers that `finish` writes and DECODE_ONCE clears (R63). -/
structure Result where
  /-- STATUS.RESULT_KIND (R39). -/
  kind : ResultKind
  /-- STATUS.MISUSE_CAUSE (R39). -/
  cause : MisuseCause
  /-- RES_SEQ (R40). -/
  seq : Word
  /-- RES_SHORT0 (R41). -/
  short0 : Word
  /-- RES_SHORT1 (R42). -/
  short1 : Word
  /-- RES_LONG0 (R43). -/
  long0 : Word
  /-- RES_LONG1 (R43). -/
  long1 : Word
  /-- RES_LONG2 (R43). -/
  long2 : Word
  /-- RES_LONG3 (R43). -/
  long3 : Word
  deriving DecidableEq, Repr

/-- Everything the block holds: what `rst` and REINIT put back (R66). -/
structure Block where
  /-- DEADLINE (R36). -/
  deadline : Word
  /-- STATUS.CMD_REJECTED (R39, R287). -/
  cmdRejected : Bool
  /-- The session configuration (R50). -/
  sess : Session
  /-- `s.state` (R51), STATUS.STATE. -/
  state : CtlState
  /-- `s.t_call` (R51), 64 bits. -/
  tCall : Micros
  /-- RecoveryState (R52 to R57). -/
  recov : Recovery
  /-- RawFrame (R58 to R61). -/
  frame : RawFrame
  /-- The live session counters (R62). -/
  cnt : Counters
  /-- CNT_HEADERS, CNT_SHORT, CNT_LONG: the last snapshot (R44). -/
  snap : Counters
  /-- The result latch (R63). -/
  result : Result
  /-- The MODEL's ghost: the outcome that ended the last attempt, until the next attempt starts (R256 allows it). No
  behaviour depends on it. -/
  lastAbort : Option AttemptOutcome
  deriving DecidableEq, Repr

/-! ### The reset values (R66) -/

/-- No session is configured. -/
def Session.none : Session :=
  { cfgValid := false, accShort := false, accLong := false, pol := false, dlMs := 0 }

/-- RecoveryState at the start of an attempt with polarity `pol` (R68). -/
def Recovery.fresh (pol : Bool) : Recovery :=
  { expected := true ^^ pol, inPre := true, run := 0, saw0 := false, err := false, ph := .waitLevel, tRef := 0 }

/-- RawFrame at the start of an attempt (R68). -/
def RawFrame.empty : RawFrame :=
  { raw := Vector.replicate 16 0, filled := 0, acc := 0, nb := 0, target := .short, famDecided := false }

/-- All counters 0. -/
def Counters.zero : Counters := { headers := 0, short := 0, long := 0 }

/-- No result: RESULT_KIND is NONE and every result register is 0 (R282). -/
def Result.none : Result :=
  { kind := .none, cause := .none, seq := 0, short0 := 0, short1 := 0, long0 := 0, long1 := 0, long2 := 0, long3 := 0 }

/-- The block after `rst` or REINIT (R66, R341). -/
def Block.reset : Block where
  deadline := 0
  cmdRejected := false
  sess := Session.none
  state := .idle
  tCall := 0
  recov := Recovery.fresh false
  frame := RawFrame.empty
  cnt := Counters.zero
  snap := Counters.zero
  result := Result.none
  lastAbort := Option.none

end Sys2Proof.Machine
end

