-- ==== Sys2Proof/Machine/State.lean ====
section
/-! DEFINITION. The state of the machine: the block and its ports (10_state.md R30), why a step stops, and reset. -/

namespace Sys2Proof.Machine

/-! ### Why a step stops -/

/-- Why the machine stops. The spec asks a model for these faults (R69, R329, I1, I2) and says that no reachable state
raises one; where they are raised the model stops and the hardware is not described, so each is safe. -/
inductive Fault where
  /-- Raised by a step from a state that breaks an invariant of R69, or whose RESULT_KIND is the never produced
  DECODE_ERROR (I3). Safe: the run stops. -/
  | invariantBroken
  /-- Raised by the frame accumulator when a bit comes while `s.filled ≥ s.target` (R69, R171, I1). Safe: the run
  stops. -/
  | bitPastTarget
  /-- Raised by HeaderSync when `s.run` is past the threshold before the sync zero, which R54 excludes (I2). Safe: the
  run stops. -/
  | runPastThreshold
  deriving DecidableEq, Repr

/-- Why an instruction has no meaning. Every instruction of the table has one, so nothing raises a refusal. -/
inductive Refusal where
  /-- An instruction of the opcode table that the model does not give a meaning. Raised by no arm of `exec`. Safe: a
  refusal claims nothing. -/
  | notModelled (mnemonic : String)
  deriving DecidableEq, Repr

/-! ### The ports -/

/-- The response to a host access (R80): `MemRead` answers `(rdata, err)`, `MemWrite` answers `err`. -/
inductive BusResponse where
  | read (rdata : Word) (err : Bool)
  | write (err : Bool)
  deriving DecidableEq, Repr

/-- The machine: the block and its ports. -/
structure State where
  /-- The block (R34 to R63). -/
  blk : Block
  /-- The `rst` input as it is driven now (R340). -/
  rst : Bool
  /-- The `now_us` input as it reads now (R32). -/
  now : Micros
  /-- `bus_rdata` and `bus_err`: the response to the latest access, none before the first one. -/
  response : Option BusResponse
  /-- The MODEL's own: what the environment does next, in order. -/
  inputs : List Event
  /-- The MODEL's own: how many events of `Config.environment` have been used. -/
  draws : Nat
  deriving DecidableEq, Repr

/-- The machine right after reset: `rst` has fallen to 0 and the block is in IDLE (R340, R341). The time and the empty
response, inputs and draws are the model's (notes/assumptions/4.md). -/
def State.reset : State :=
  { blk := Block.reset, rst := false, now := 0, response := Option.none, inputs := [], draws := 0 }

end Sys2Proof.Machine
end

