-- ==== Sys2Proof/Machine/Flags.lean ====
section
/-! DEFINITION. The status bits and codes (10_state.md R39, 30_encoding.md R104, R105) and the accept table of the
commands (46_host_commands.md R286). -/

namespace Sys2Proof.Machine

/-- STATUS.STATE (R104). -/
def CtlState.code : CtlState → BitVec 3
  | .idle => 0
  | .searching => 1
  | .receiving => 2
  | .decoding => 3
  | .done => 4

/-- STATUS.RESULT_KIND (R105). -/
def ResultKind.code : ResultKind → BitVec 4
  | .none => 0
  | .thermoHygro => 1
  | .weatherStation => 2
  | .decodeError => 3
  | .timeout => 4
  | .misuse => 5

/-- STATUS.MISUSE_CAUSE (R105). -/
def MisuseCause.code : MisuseCause → BitVec 4
  | .none => 0
  | .noSession => 1
  | .noFamily => 2

/-- The spec's own numbers for the attempt outcomes (R311). -/
def AttemptOutcome.code : AttemptOutcome → Nat
  | .waveformViolation => 1
  | .synchronizationFailure => 2
  | .checksumMismatch => 3
  | .crcMismatch => 4
  | .unrecognizedFamily => 5
  | .rangeViolation => 6

/-- A result kind that carries a reading (R40, R316). -/
def ResultKind.isReading : ResultKind → Bool
  | .thermoHygro | .weatherStation => true
  | .none | .decodeError | .timeout | .misuse => false

/-- STATUS.BUSY of a controller state: SEARCHING, RECEIVING or DECODING (R39, R104). -/
def CtlState.busy : CtlState → Bool
  | .searching | .receiving | .decoding => true
  | .idle | .done => false

/-- STATUS.BUSY (R39). -/
def Block.busy (b : Block) : Bool := b.state.busy

/-- The block is inside an attempt: RECEIVING or DECODING (R250). -/
def Block.inAttempt (b : Block) : Bool :=
  match b.state with
  | .receiving | .decoding => true
  | .idle | .searching | .done => false

/-- The `done` output: 1 exactly in DONE (R33). While `rst` is 1 the block is held in IDLE (R340), so it is 0. -/
def State.done (s : State) : Bool := !s.rst && decide (s.blk.state = .done)

/-- `Accept(op)` (R286). -/
def accepts (i : Instr) (busy : Bool) : Bool :=
  match i with
  | .nop | .snapshot => true
  | .startSession _ _ _ | .decodeOnce | .reinit => !busy
  | .reserved5 | .reserved6 | .reserved7 | .reserved8 | .reserved9 | .reservedA | .reservedB | .reservedC
  | .reservedD | .reservedE | .reservedF => false

/-- STATUS.CMD_REJECTED written (R287). -/
def Block.setRejected (rejected : Bool) (b : Block) : Block := { b with cmdRejected := rejected }

/-- STATUS as a word (R39). -/
def Block.statusWord (b : Block) : Word :=
  0#16 ++ b.result.cause.code ++ 0#3 ++ BitVec.ofBool b.cmdRejected ++ b.result.kind.code ++
    BitVec.ofBool b.busy ++ b.state.code

end Sys2Proof.Machine
end

