-- ==== Sys2Proof/Machine/Operands.lean ====
section
/-! DEFINITION. The register window: names, offsets and contents (10_state.md R34 to R45), and the operands of the
commands (30_encoding.md R102). -/

namespace Sys2Proof.Machine

/-- The 16 registers of the window (R34). -/
inductive Reg where
  | cmd | deadline | session | sessionDeadline | status | resSeq | resShort0 | resShort1
  | resLong0 | resLong1 | resLong2 | resLong3 | cntHeaders | cntShort | cntLong | reserved3C
  deriving DecidableEq, Repr

/-- The byte offset of a register (R34). -/
def Reg.offset : Reg → BitVec 6
  | .cmd => 0x00
  | .deadline => 0x04
  | .session => 0x08
  | .sessionDeadline => 0x0C
  | .status => 0x10
  | .resSeq => 0x14
  | .resShort0 => 0x18
  | .resShort1 => 0x1C
  | .resLong0 => 0x20
  | .resLong1 => 0x24
  | .resLong2 => 0x28
  | .resLong3 => 0x2C
  | .cntHeaders => 0x30
  | .cntShort => 0x34
  | .cntLong => 0x38
  | .reserved3C => 0x3C

/-- The register at a legal byte offset, which `addr[5:2]` names (R34, R80). -/
def regAt (addr : BitVec 6) : Reg :=
  match (addr.extractLsb' 2 4).toNat with
  | 0 => .cmd
  | 1 => .deadline
  | 2 => .session
  | 3 => .sessionDeadline
  | 4 => .status
  | 5 => .resSeq
  | 6 => .resShort0
  | 7 => .resShort1
  | 8 => .resLong0
  | 9 => .resLong1
  | 10 => .resLong2
  | 11 => .resLong3
  | 12 => .cntHeaders
  | 13 => .cntShort
  | 14 => .cntLong
  | _ => .reserved3C

/-- SESSION as a word: the session configuration read back (R37, R281). -/
def Session.word (c : Session) : Word :=
  0#21 ++ BitVec.ofBool c.pol ++ BitVec.ofBool c.accLong ++ BitVec.ofBool c.accShort ++ 0#7 ++ BitVec.ofBool c.cfgValid

/-- `read_reg`: what a register reads as (R35 to R45, R81). -/
def readReg (r : Reg) (b : Block) : Word :=
  match r with
  | .cmd => 0
  | .deadline => b.deadline
  | .session => b.sess.word
  | .sessionDeadline => b.sess.dlMs
  | .status => b.statusWord
  | .resSeq => b.result.seq
  | .resShort0 => b.result.short0
  | .resShort1 => b.result.short1
  | .resLong0 => b.result.long0
  | .resLong1 => b.result.long1
  | .resLong2 => b.result.long2
  | .resLong3 => b.result.long3
  | .cntHeaders => b.snap.headers
  | .cntShort => b.snap.short
  | .cntLong => b.snap.long
  | .reserved3C => 0

/-- RES_LONG0 to RES_LONG3 by number (R43). -/
def longReg : Fin 4 → Reg
  | 0 => .resLong0
  | 1 => .resLong1
  | 2 => .resLong2
  | 3 => .resLong3

/-- The fields of RES_SHORT0 (R41). -/
def channelField (short0 : Word) : BitVec 4 := short0.extractLsb' 0 4

/-- RES_SHORT0.BATTERY_LOW (R41). -/
def batteryField (short0 : Word) : Bool := short0.getLsbD 7

/-- RES_SHORT0.ID (R41). -/
def idField (short0 : Word) : Byte := short0.extractLsb' 8 8

/-- RES_SHORT0.TEMP_RAW (R41). -/
def tempRawField (short0 : Word) : BitVec 12 := short0.extractLsb' 16 12

/-- RES_SHORT1.TEMP_F10 (R42). -/
def tempF10Field (short1 : Word) : BitVec 16 := short1.extractLsb' 0 16

/-- RES_SHORT1.HUMIDITY (R42). -/
def humidityField (short1 : Word) : Byte := short1.extractLsb' 16 8

/-- RES_SHORT1.CHECKSUM (R42). -/
def checksumField (short1 : Word) : Byte := short1.extractLsb' 24 8

/-- The session that START_SESSION latches: its three flags, and the deadline in DEADLINE (R102, R281). -/
def sessionOf (acceptShort acceptLong polarity : Bool) (deadline : Word) : Session :=
  { cfgValid := true, accShort := acceptShort, accLong := acceptLong, pol := polarity, dlMs := deadline }

end Sys2Proof.Machine
end

