-- ==== Sys2Proof/Machine/Ops.lean ====
section
/-! DEFINITION. The operations that the block's steps and the commands share: the attempt start (10_state.md R68), ending
an attempt (45_session_controller.md R256) and a request (R258), and one host command (46_host_commands.md). -/

namespace Sys2Proof.Machine

/-- `raise Abort(kind)`: this block's taking of an exception (R256, R319). It saves nothing and goes to SEARCHING; the
kind is recorded in the ghost alone. The return from it is CS.SEARCH (R257, R320). -/
def Block.abort (kind : AttemptOutcome) (b : Block) : Block :=
  { b with state := .searching, lastAbort := some kind }

/-- The attempt start: RecoveryState and RawFrame created fresh, and RECEIVING entered (R68, R252). -/
def Block.attemptStart (b : Block) : Block :=
  { b with
    state := .receiving
    recov := Recovery.fresh b.sess.pol
    frame := RawFrame.empty
    lastAbort := none }

/-- `finish`: publish the result registers and enter DONE, in one action (R258). -/
def Block.finish (r : Result) (b : Block) : Block :=
  { b with state := .done, result := r }

/-- The result of `finish(TIMEOUT)` (R258, R316). -/
def Result.timeout : Result := { Result.none with kind := .timeout }

/-- The result of `finish(MISUSE, cause)` (R258, R316). -/
def Result.misuse (cause : MisuseCause) : Result := { Result.none with kind := .misuse, cause := cause }

/-- The clear that an accepted DECODE_ONCE makes (R282). -/
def Block.clearResult (b : Block) : Block := { b with result := Result.none }

/-- The sequence number of a reading: the accepted frames of both families, modulo 2^32 (R259). -/
def Counters.sequence (c : Counters) : Word := c.short + c.long

/-- `s.target` as a number of bytes (R61). -/
def Target.bytes : Target → Nat
  | .short => Config.shortLen
  | .long => Config.longLen

/-- There is room for a bit: `s.filled` is below `s.target`. -/
def RawFrame.hasRoom (f : RawFrame) : Bool := decide (f.filled.toNat < f.target.bytes)

/-- One CMD write: decide accept or reject, set CMD_REJECTED, and run the effect of an accepted command
(46_host_commands.md `CmdWrite`, R83, R286, R287). -/
def cmdWrite (i : Instr) (effect : Block → Block) (s : State) : Host.Outcome State Fault Refusal :=
  .next { s with
    blk := if accepts i s.blk.busy then effect (s.blk.setRejected false) else s.blk.setRejected true }

end Sys2Proof.Machine
end

