-- ==== Sys2Proof/Machine/FrameAccumulator.lean ====
section
/-! DEFINITION. The frame accumulator and the length discriminator (42_frame_accumulator.md). -/

namespace Sys2Proof.Machine

/-- FA.SHIFT's new accumulator: `{acc[6:0], b}` (R170). -/
def shiftIn (acc : Byte) (bit : Bool) : Byte := acc.extractLsb' 0 7 ++ BitVec.ofBool bit

/-- FA.BYTE's append: the completed byte goes to `raw[filled]` and the partial byte is emptied (R171). -/
def RawFrame.append (f : RawFrame) (byte : Byte) : RawFrame :=
  { f with raw := f.raw.setIfInBounds f.filled.toNat byte, filled := f.filled + 1, acc := 0, nb := 0 }

/-- FA.FAMILY: with the second byte the length is decided, 16 when the session accepts the long family and byte 1 is its
signature (R172). -/
def RawFrame.decideFamily (longSig : Byte) (accLong : Bool) (f : RawFrame) : RawFrame :=
  if f.filled = 2 ∧ f.famDecided = false then
    { f with
      famDecided := true
      target := if accLong = true ∧ f.raw[1] = longSig then .long else f.target }
  else f

/-- FA.COMPLETE: a frame of `target` bytes goes to DECODING (R173). -/
def Block.completeFrame (b : Block) : Block :=
  if b.frame.filled.toNat = b.frame.target.bytes then { b with state := .decoding } else b

/-- The eighth bit of a byte: FA.BYTE, FA.FAMILY and FA.COMPLETE (R171 to R173). -/
def completeByte (p : Params) (byte : Byte) (b : Block) : Block :=
  ({ b with frame := (b.frame.append byte).decideFamily p.longSig b.sess.accLong } : Block).completeFrame

/-- `Accumulate(b)` (R170 to R173). A bit past `target` bytes is the fault that R69 and I1 ask for, whichever bit of a
byte it is. -/
def accumulate (p : Params) (bit : Bool) (b : Block) : Except Fault Block :=
  if b.frame.hasRoom then
    if b.frame.nb = 7 then .ok (completeByte p (shiftIn b.frame.acc bit) b)
    else .ok { b with frame := { b.frame with acc := shiftIn b.frame.acc bit, nb := b.frame.nb + 1 } }
  else .error .bitPastTarget

end Sys2Proof.Machine
end

