-- ==== Sys2Proof/Machine/HeaderSync.lean ====
section
/-! DEFINITION. The header synchronizer (41_header_sync.md). -/

namespace Sys2Proof.Machine

/-- HS.ONE: count a preamble one up to the threshold. The one that reaches it ends the preamble and counts a header;
later ones are absorbed (R150). -/
def hsOne (p : Params) (b : Block) : Block :=
  if b.recov.run < p.headerThreshold then
    if b.recov.run + 1 = p.headerThreshold then
      { b with
        recov := { b.recov with run := b.recov.run + 1, inPre := false }
        cnt := { b.cnt with headers := b.cnt.headers + 1 } }
    else { b with recov := { b.recov with run := b.recov.run + 1 } }
  else b

/-- HS.EARLY_ZERO: a zero before the threshold ends the attempt (R151). -/
def hsEarlyZero (b : Block) : Block := b.abort .synchronizationFailure

/-- HS.SYNC: the synchronization zero is consumed (R152). -/
def hsSync (b : Block) : Block := { b with recov := { b.recov with saw0 := true } }

/-- HS.DATA: the bit goes to the frame accumulator (R153). -/
def hsData (p : Params) (bit : Bool) (b : Block) : Except Fault Block := accumulate p bit b

/-- `HeaderSync(b)`: exactly one of HS.ONE, HS.EARLY_ZERO, HS.SYNC and HS.DATA. A run past the threshold, which R54
excludes, is a fault (I2). -/
def headerSync (p : Params) (bit : Bool) (b : Block) : Except Fault Block :=
  if b.recov.saw0 then hsData p bit b
  else if bit then .ok (hsOne p b)
  else if b.recov.run < p.headerThreshold then .ok (hsEarlyZero b)
  else if b.recov.run = p.headerThreshold then .ok (hsSync b)
  else .error .runPastThreshold

end Sys2Proof.Machine
end

