-- ==== Sys2Proof/Machine/BitRecovery.lean ====
section
/-! DEFINITION. The bit recovery engine (40_bit_recovery.md). `rx` is the draw that `Sample()` returns and `now` the time
that `Now()` returns in the step. -/

namespace Sys2Proof.Machine

/-- `Now() − since`, in 64 bits, has reached `delay` (R32, R132, R133). -/
def delayElapsed (delay : Nat) (since now : Micros) : Bool := decide (delay ≤ (now - since).toNat)

/-- BR.POLL: the wait ends at the first poll that finds the line at the awaited level (R131). -/
def brPoll (rx : Bool) (now : Micros) (b : Block) : Block :=
  if rx = b.recov.expected then { b with recov := { b.recov with tRef := now, ph := .waitShort } } else b

/-- BR.SHORT: a line that left the awaited level within the short delay is a waveform violation (R132). -/
def brShort (rx : Bool) (now : Micros) (b : Block) : Block :=
  if rx = b.recov.expected then { b with recov := { b.recov with tRef := now, ph := .waitLong } }
  else ({ b with recov := { b.recov with err := true } } : Block).abort .waveformViolation

/-- The level awaited next: it flips when the line did not change at the bit boundary (R133). -/
def nextExpected (rx expected : Bool) : Bool := if rx = expected then !expected else expected

/-- BR.LONG's own part: the new awaited level, and back to the wait (R133). -/
def brTurn (rx : Bool) (b : Block) : Block :=
  { b with recov := { b.recov with expected := nextExpected rx b.recov.expected, ph := .waitLevel } }

/-- The bit that BR.LONG emits: `E ⊕ P`, of the updated `E` (R133, D10). -/
def brBit (rx : Bool) (b : Block) : Bool := nextExpected rx b.recov.expected ^^ b.sess.pol

/-- BR.LONG: update the awaited level, then hand the bit `E ⊕ P`, of the updated `E`, to the header synchronizer in the
same step (R133, D10). -/
def brLong (p : Params) (rx : Bool) (b : Block) : Except Fault Block :=
  headerSync p (brBit rx b) (brTurn rx b)

end Sys2Proof.Machine
end

