-- ==== Sys2Proof/Machine/LongDecoder.lean ====
section
/-! DEFINITION. The long-family (weather-station) decoder (44_long_decoder.md). -/

namespace Sys2Proof.Machine

/-- The low nibble of one byte above the high nibble of the next (R221). -/
def joinNibbles (hi lo : Byte) : Byte := hi.extractLsb' 0 4 ++ lo.extractLsb' 4 4

/-- LD.REALIGN: the 15 reconstructed bytes `R[0..14]` (R221). -/
def reconstructed (raw : Vector Byte 16) : Vector Byte 15 :=
  #v[joinNibbles raw[0] raw[1], joinNibbles raw[1] raw[2], joinNibbles raw[2] raw[3], joinNibbles raw[3] raw[4],
    joinNibbles raw[4] raw[5], joinNibbles raw[5] raw[6], joinNibbles raw[6] raw[7], joinNibbles raw[7] raw[8],
    joinNibbles raw[8] raw[9], joinNibbles raw[9] raw[10], joinNibbles raw[10] raw[11], joinNibbles raw[11] raw[12],
    joinNibbles raw[12] raw[13], joinNibbles raw[13] raw[14], joinNibbles raw[14] raw[15]]

/-- The payload `P[0..13]`: the reconstructed bytes without the sentinel `R[0]`, which is compared with nothing (R221,
R222). -/
def payload (raw : Vector Byte 16) : Vector Byte 14 :=
  let r := reconstructed raw
  #v[r[1], r[2], r[3], r[4], r[5], r[6], r[7], r[8], r[9], r[10], r[11], r[12], r[13], r[14]]

/-- The table-driven CRC-8 of a list of bytes (R223, D25). -/
def crcOver (table : Byte → Byte) (data : List Byte) : Byte :=
  data.foldl (fun crc byte => table (crc ^^^ byte)) Config.crcSeed

/-- LD.CRC: the CRC of `P[0..12]` (R223). -/
def payloadCrc (table : Byte → Byte) (pl : Vector Byte 14) : Byte := crcOver table (pl.toList.take 13)

/-- Four payload bytes as one register, the lowest-numbered in the low bits (R43, R85). -/
def packWord (b0 b1 b2 b3 : Byte) : Word := b3 ++ b2 ++ b1 ++ b0

/-- The reading of a payload as the result registers hold it, with the sequence number that the counters give (R225,
R259). -/
def longReading (cnt : Counters) (pl : Vector Byte 14) : Result :=
  { Result.none with
    kind := .weatherStation
    seq := cnt.sequence
    long0 := packWord pl[0] pl[1] pl[2] pl[3]
    long1 := packWord pl[4] pl[5] pl[6] pl[7]
    long2 := packWord pl[8] pl[9] pl[10] pl[11]
    long3 := packWord pl[12] pl[13] 0 0 }

/-- LD.ACCEPT: count the frame, then publish the payload (R225). -/
def ldAccept (pl : Vector Byte 14) (b : Block) : Block :=
  let cnt : Counters := { b.cnt with long := b.cnt.long + 1 }
  ({ b with cnt := cnt } : Block).finish (longReading cnt pl)

/-- The long family's check of a payload: its CRC (R223, R224). -/
def longFramePasses (p : Params) (pl : Vector Byte 14) : Bool := payloadCrc p.crcTable pl == pl[13]

/-- `LongDecode()`: realign, check the CRC, accept (R221 to R225). -/
def longDecode (p : Params) (b : Block) : Block :=
  let pl := payload b.frame.raw
  if payloadCrc p.crcTable pl ≠ pl[13] then b.abort .crcMismatch else ldAccept pl b

/-! ### The consumer's side: the typed fields (R227). No rule of the block uses them. -/

/-- One bit of the checked payload `P[0..12]`: number `8 j + i` is bit `i` of `P[j]` (R227). -/
def payloadBit (pl : Vector Byte 14) (n : Fin 104) : Bool := (pl.toList.getD (n.val / 8) 0).getLsbD (n.val % 8)

/-- The same bit as a consumer finds it in RES_LONG0 to RES_LONG3 (R43, R227). -/
def publishedBit (b : Block) (n : Fin 104) : Bool :=
  (readReg (longReg ⟨n.val / 32, by omega⟩) b).getLsbD (n.val % 32)

/-- A typed field under a layout, its bits most significant first, read from RES_LONG0 to RES_LONG3. -/
def longFieldBits (layout : LongLayout) (f : LongField) (b : Block) : List Bool :=
  (layout.bits f).map (publishedBit b)

/-- The number that bits make, the first most significant. -/
def bitsValue (bits : List Bool) : Nat := bits.foldl (fun v bit => 2 * v + bit.toNat) 0

/-- A typed field as a number: of the humidity and of the UV index, the value itself ("direct"). -/
def longFieldValue (layout : LongLayout) (f : LongField) (b : Block) : Nat := bitsValue (longFieldBits layout f b)

/-- The long family's temperature: the raw value less 400, in tenths, as in the short family (R195, R227). -/
def longTempF10 (layout : LongLayout) (b : Block) : BitVec 16 :=
  BitVec.ofNat 16 (longFieldValue layout .temperature b) - Config.tempOffset

/-- The long family's battery-low flag (R227). -/
def longBatteryLow (layout : LongLayout) (b : Block) : Bool := publishedBit b layout.batteryLow

end Sys2Proof.Machine
end

