-- ==== Sys2Proof/Machine/ShortDecoder.lean ====
section
/-! DEFINITION. The short-family (thermo-hygrometer) decoder (43_short_decoder.md). -/

namespace Sys2Proof.Machine

/-- `ror8(v)`: `{v[0], v[7:1]}` (R10). -/
def ror8 (v : Byte) : Byte := v.extractLsb' 0 1 ++ v.extractLsb' 1 7

/-- One step of the rotating mask: rotate right, and apply the tap when the bit rotated out is 1 (R198). -/
def maskStep (mask : Byte) : Byte := if mask.getLsbD 0 then ror8 mask ^^^ Config.chkTap else ror8 mask

/-- One data bit: the mask moves first, then a 1 folds the new mask into the sum (R198, D21). -/
def chkBit (bit : Bool) (ms : Byte × Byte) : Byte × Byte :=
  (maskStep ms.1, if bit then ms.2 ^^^ maskStep ms.1 else ms.2)

/-- The bits of a byte, most significant first (R9). -/
def bitsMsbFirst (v : Byte) : List Bool :=
  [v.getLsbD 7, v.getLsbD 6, v.getLsbD 5, v.getLsbD 4, v.getLsbD 3, v.getLsbD 2, v.getLsbD 1, v.getLsbD 0]

/-- The mask and the sum after the data bits `bits` (R198). -/
def chkBits (bits : List Bool) (ms : Byte × Byte) : Byte × Byte := bits.foldl (fun a bit => chkBit bit a) ms

/-- The rotating-XOR checksum of a list of bytes, from a mask seed and an accumulator seed (R198). -/
def checksumWith (maskSeed accSeed : Byte) (data : List Byte) : Byte :=
  (chkBits (data.flatMap bitsMsbFirst) (maskSeed, accSeed)).2

/-- Bytes 1 to 5 of the sample packet of the source's §8 (E1). -/
def sampleBytes : List Byte := [0x45, 0x4F, 0x04, 0x4B, 0x0B]

/-- `P_CHK_ACC_SEED`: the accumulator seed under which the sample packet's checksum is 0x52 (R198, D21). -/
def chkAccSeed (maskSeed : Byte) : Byte := 0x52 ^^^ checksumWith maskSeed 0 sampleBytes

/-- `ChecksumShort` (R198). -/
def checksumShort (maskSeed : Byte) (data : List Byte) : Byte := checksumWith maskSeed (chkAccSeed maskSeed) data

/-- Bytes 1 to 5 of the frame (R199). -/
def checkedBytes (raw : Vector Byte 16) : List Byte := [raw[1], raw[2], raw[3], raw[4], raw[5]]

/-- SD.CHANNEL: `raw[3][6:4] + 1` in 4 bits (R192). -/
def sdChannel (raw : Vector Byte 16) : BitVec 4 := (raw[3].extractLsb' 4 3).setWidth 4 + 1

/-- SD.BATTERY: `raw[3][7]`, 1 when low (R193). -/
def sdBatteryLow (raw : Vector Byte 16) : Bool := raw[3].getLsbD 7

/-- SD.TEMP_RAW: `{raw[3][3:0], raw[4]}` (R194, C1). -/
def sdTempRaw (raw : Vector Byte 16) : BitVec 12 := raw[3].extractLsb' 0 4 ++ raw[4]

/-- SD.TEMP_F10: the raw temperature less 400, 16 bits in two's complement (R195). -/
def sdTempF10 (raw : Vector Byte 16) : BitVec 16 := (sdTempRaw raw).setWidth 16 - Config.tempOffset

/-- SD.UNCHECKED: byte 2, exported as ID (R196). -/
def sdId (raw : Vector Byte 16) : Byte := raw[2]

/-- SD.HUMIDITY: byte 5 (R197). -/
def sdHumidity (raw : Vector Byte 16) : Byte := raw[5]

/-- RES_SHORT0 of an accepted frame (R41, R200). -/
def sdWord0 (raw : Vector Byte 16) : Word :=
  0#4 ++ sdTempRaw raw ++ sdId raw ++ BitVec.ofBool (sdBatteryLow raw) ++ 0#3 ++ sdChannel raw

/-- RES_SHORT1 of an accepted frame (R42, R200). -/
def sdWord1 (raw : Vector Byte 16) : Word := raw[6] ++ sdHumidity raw ++ sdTempF10 raw

/-- The reading of a frame as the result registers hold it, with the sequence number that the counters give (R200,
R259). -/
def shortReading (cnt : Counters) (raw : Vector Byte 16) : Result :=
  { Result.none with kind := .thermoHygro, seq := cnt.sequence, short0 := sdWord0 raw, short1 := sdWord1 raw }

/-- SD.ACCEPT: count the frame, then publish the reading (R200). -/
def sdAccept (b : Block) : Block :=
  let cnt : Counters := { b.cnt with short := b.cnt.short + 1 }
  ({ b with cnt := cnt } : Block).finish (shortReading cnt b.frame.raw)

/-- The short family's check of a frame: its type byte, its checksum and its humidity (R190, R197, R199). -/
def shortFramePasses (p : Params) (raw : Vector Byte 16) : Bool :=
  raw[1] == Config.shortSig && checksumShort p.chkMaskSeed (checkedBytes raw) == raw[6] &&
    decide (sdHumidity raw ≤ Config.humMax)

/-- `ShortDecode()`: family, then checksum, then humidity range, then the reading (R190 to R200). -/
def shortDecode (p : Params) (b : Block) : Block :=
  if b.sess.accShort = false ∨ b.frame.raw[1] ≠ Config.shortSig then b.abort .unrecognizedFamily
  else if checksumShort p.chkMaskSeed (checkedBytes b.frame.raw) ≠ b.frame.raw[6] then b.abort .checksumMismatch
  else if Config.humMax < sdHumidity b.frame.raw then b.abort .rangeViolation
  else sdAccept b

end Sys2Proof.Machine
end

