-- ==== Sys2Proof/Machine/Controller.lean ====
section
/-! DEFINITION. The session controller: which step is enabled and what it does (45_session_controller.md R250 to R262). -/

namespace Sys2Proof.Machine

/-- The steps the block takes by itself (R250). -/
inductive BlockStep where
  | csSearch | brPoll | brShort | brLong | csDecode
  deriving DecidableEq, Repr

/-- The delay that the block is waiting out, if it is in WAIT_SHORT or WAIT_LONG (R132, R133). -/
def pendingDelay (p : Params) (b : Block) : Option Nat :=
  match b.state, b.recov.ph with
  | .receiving, .waitShort => some p.shortDelayUs
  | .receiving, .waitLong => some p.longDelayUs
  | .receiving, .waitLevel => none
  | .idle, _ => none
  | .searching, _ => none
  | .decoding, _ => none
  | .done, _ => none

/-- The one step that is enabled, if there is one (R250). -/
def enabledStep (p : Params) (now : Micros) (b : Block) : Option BlockStep :=
  match b.state with
  | .idle => none
  | .searching => some .csSearch
  | .receiving =>
    match b.recov.ph with
    | .waitLevel => some .brPoll
    | .waitShort => if delayElapsed p.shortDelayUs b.recov.tRef now then some .brShort else none
    | .waitLong => if delayElapsed p.longDelayUs b.recov.tRef now then some .brLong else none
  | .decoding => some .csDecode
  | .done => none

/-- The deadline has elapsed: `Now() − t_call ≥ 1000 × dl_ms`, in 64 bits (R252). -/
def deadlineElapsed (now : Micros) (b : Block) : Bool :=
  decide (1000 * b.sess.dlMs.setWidth 64 ≤ now - b.tCall)

/-- CS.SEARCH: the deadline test, then TIMEOUT or a fresh attempt (R252). -/
def csSearch (now : Micros) (b : Block) : Block :=
  if deadlineElapsed now b then b.finish Result.timeout else b.attemptStart

/-- CS.DECODE: the decoder that the frame's length selects (R255). -/
def csDecode (p : Params) (b : Block) : Block :=
  match b.frame.target with
  | .long => longDecode p b
  | .short => shortDecode p b

/-- The block's turn: its enabled step, or nothing where none is enabled (R250, R260). -/
def blockStep (p : Params) (rx : Bool) (now : Micros) (b : Block) : Except Fault Block :=
  match enabledStep p now b with
  | none => .ok b
  | some .csSearch => .ok (csSearch now b)
  | some .brPoll => .ok (brPoll rx now b)
  | some .brShort => .ok (brShort rx now b)
  | some .brLong => brLong p rx b
  | some .csDecode => .ok (csDecode p b)

/-- The time after the environment moves `now_us` to `t`: never back (R32), and never past the instant at which BR.SHORT
or BR.LONG becomes enabled, since that step "fires at the first instant the condition holds" (R132, R133, R261). -/
def timeAfter (p : Params) (t now : Micros) (b : Block) : Micros :=
  if t ≤ now then now
  else
    match pendingDelay p b with
    | none => t
    | some d =>
      let due := now.toNat + (d - (now - b.recov.tRef).toNat)
      if due < t.toNat then BitVec.ofNat 64 due else t

end Sys2Proof.Machine
end

