-- ==== Sys2Proof/Machine/Commands.lean ====
section
/-! DEFINITION. The meaning of every host command (46_host_commands.md R280 to R286). -/

namespace Sys2Proof.Machine

/-- START_SESSION's effect: latch the session configuration; the controller state, the result and the counters stay
(R281). -/
def startSessionEffect (acceptShort acceptLong polarity : Bool) (b : Block) : Block :=
  { b with sess := sessionOf acceptShort acceptLong polarity b.deadline }

/-- DECODE_ONCE's effect at time `now`: clear the result, then a misuse or a new request (R282). -/
def decodeOnceEffect (now : Micros) (b : Block) : Block :=
  let cleared := b.clearResult
  if b.sess.cfgValid = false then cleared.finish (Result.misuse .noSession)
  else if b.sess.accShort = false ∧ b.sess.accLong = false then cleared.finish (Result.misuse .noFamily)
  else { cleared with tCall := now, state := .searching }

/-- SNAPSHOT's effect: the three live counters copied in one step (R283). -/
def snapshotEffect (b : Block) : Block := { b with snap := b.cnt }

/-- REINIT's effect: the reset state (R284, R342). -/
def reinitEffect (_ : Block) : Block := Block.reset

/-- NOP: CMD_REJECTED alone is written (R280). -/
def execNop (s : State) : Host.Outcome State Fault Refusal := cmdWrite .nop id s

/-- START_SESSION (R281). -/
def execStartSession (acceptShort acceptLong polarity : Bool) (s : State) : Host.Outcome State Fault Refusal :=
  cmdWrite (.startSession acceptShort acceptLong polarity) (startSessionEffect acceptShort acceptLong polarity) s

/-- DECODE_ONCE (R282). -/
def execDecodeOnce (s : State) : Host.Outcome State Fault Refusal := cmdWrite .decodeOnce (decodeOnceEffect s.now) s

/-- SNAPSHOT (R283). -/
def execSnapshot (s : State) : Host.Outcome State Fault Refusal := cmdWrite .snapshot snapshotEffect s

/-- REINIT (R284). -/
def execReinit (s : State) : Host.Outcome State Fault Refusal := cmdWrite .reinit reinitEffect s

/-- The reserved opcode 0x5: rejected, with no other effect (R285). -/
def execReserved5 (s : State) : Host.Outcome State Fault Refusal := cmdWrite .reserved5 id s

/-- The reserved opcode 0x6 (R285). -/
def execReserved6 (s : State) : Host.Outcome State Fault Refusal := cmdWrite .reserved6 id s

/-- The reserved opcode 0x7 (R285). -/
def execReserved7 (s : State) : Host.Outcome State Fault Refusal := cmdWrite .reserved7 id s

/-- The reserved opcode 0x8 (R285). -/
def execReserved8 (s : State) : Host.Outcome State Fault Refusal := cmdWrite .reserved8 id s

/-- The reserved opcode 0x9 (R285). -/
def execReserved9 (s : State) : Host.Outcome State Fault Refusal := cmdWrite .reserved9 id s

/-- The reserved opcode 0xA (R285). -/
def execReservedA (s : State) : Host.Outcome State Fault Refusal := cmdWrite .reservedA id s

/-- The reserved opcode 0xB (R285). -/
def execReservedB (s : State) : Host.Outcome State Fault Refusal := cmdWrite .reservedB id s

/-- The reserved opcode 0xC (R285). -/
def execReservedC (s : State) : Host.Outcome State Fault Refusal := cmdWrite .reservedC id s

/-- The reserved opcode 0xD (R285). -/
def execReservedD (s : State) : Host.Outcome State Fault Refusal := cmdWrite .reservedD id s

/-- The reserved opcode 0xE (R285). -/
def execReservedE (s : State) : Host.Outcome State Fault Refusal := cmdWrite .reservedE id s

/-- The reserved opcode 0xF (R285). -/
def execReservedF (s : State) : Host.Outcome State Fault Refusal := cmdWrite .reservedF id s

end Sys2Proof.Machine
end

