-- ==== Sys2Proof/Machine/Invariants.lean ====
section
/-! DEFINITION. The invariants of 10_state.md R69 as one state can show them: a model that reaches a state which breaks one
"must record a fault for that state, not a value" (R69, R329). -/

namespace Sys2Proof.Machine

/-- The result registers hold what RESULT_KIND lets them hold: a reading's own registers, and 0 elsewhere (R40 to R43,
R69: without a passed check "no field of it reaches a register"). -/
def Result.confined (r : Result) : Bool :=
  (r.kind.isReading || r.seq == 0) &&
    (r.kind == .thermoHygro || (r.short0 == 0 && r.short1 == 0)) &&
    (r.kind == .weatherStation || (r.long0 == 0 && r.long1 == 0 && r.long2 == 0 && r.long3 == 0))

/-- A short reading's channel is in 1..8 and its humidity in 0..100 (R69). -/
def Result.inRange (r : Result) : Bool :=
  r.kind != .thermoHygro ||
    (decide (1 ≤ channelField r.short0) && decide (channelField r.short0 ≤ 8) &&
      decide (humidityField r.short1 ≤ Config.humMax))

/-- `s.target` "never decreases within an attempt" and "stays 7 unless" R172 "raises it to 16" (R69). A target of 16: the
family was decided by the second byte, which is the long signature, and within the attempt the session accepts the long
family. A target of 7: within the attempt R172 has not met the conditions under which it raises it. -/
def Block.targetEarned (p : Params) (b : Block) : Bool :=
  match b.frame.target with
  | .long =>
    b.frame.famDecided && decide (2 ≤ b.frame.filled.toNat) && b.frame.raw[1] == p.longSig &&
      (!b.inAttempt || b.sess.accLong)
  | .short =>
    !(b.inAttempt && b.sess.accLong && (b.frame.famDecided || decide (2 ≤ b.frame.filled.toNat)) &&
      b.frame.raw[1] == p.longSig)

/-- "A reading is emitted only when its family's check passes" (R69). A reading that the registers hold is the one that
its accept publishes from RawFrame in DONE, and that frame passes its family's check: nothing writes RawFrame, the
counters or the result between the accept and the clear of the result (R68, R258, R282). -/
def Block.readingEarned (p : Params) (b : Block) : Bool :=
  match b.result.kind with
  | .thermoHygro =>
    b.state == .done && b.frame.target == .short && shortFramePasses p b.frame.raw &&
      b.result == shortReading b.cnt b.frame.raw
  | .weatherStation =>
    b.state == .done && b.frame.target == .long && longFramePasses p (payload b.frame.raw) &&
      b.result == longReading b.cnt (payload b.frame.raw)
  | .none | .decodeError | .timeout | .misuse => true

/-- The invariants of R69 that one state can show, and I3: `s.filled ≤ s.target`, and below it as long as bits are
received; the target as R172 leaves it; result registers as their kind allows, and a reading only of a frame that passed
its check. A step from a state that breaks one is a fault (R69, R329). -/
def Block.lawful (p : Params) (b : Block) : Bool :=
  decide (b.frame.filled.toNat ≤ b.frame.target.bytes) && (b.state != .receiving || b.frame.hasRoom) &&
    b.targetEarned p && b.result.kind != .decodeError && b.result.confined && b.result.inRange && b.readingEarned p

end Sys2Proof.Machine
end

