-- ==== Sys2Proof/Machine/Bus.lean ====
section
/-! DEFINITION. The ports: the host bus (20_memory.md R80 to R83), `rst` (70_reset_and_hazards.md R340), time and the
block's turn, each as one event of the environment. -/

namespace Sys2Proof.Machine

/-- A legal access: 4 bytes, at an address that 4 divides (R80). -/
def legalAccess (r : BusRequest) : Bool := r.size == 4 && r.addr.extractLsb' 0 2 == 0

/-- An access answered: the response port alone changes. -/
def State.respond (resp : BusResponse) (s : State) : State := { s with response := some resp }

/-- An outcome of a command write, answered with `err = 0` (R82, R83). -/
def answerWrite : Host.Outcome State Fault Refusal → Host.Outcome State Fault Refusal
  | .next s => .next (s.respond (.write false))
  | .fault f => .fault f
  | .refused r => .refused r

/-- `MemRead` (R80, R81). An illegal read answers 0 with `err = 1`; no read changes the block. -/
def busRead (r : BusRequest) (s : State) : State :=
  if legalAccess r then s.respond (.read (readReg (regAt r.addr) s.blk) false)
  else s.respond (.read 0 true)

/-- `write_reg` (R82): CMD runs a command, DEADLINE stores, and every other register ignores the write. -/
def writeReg (r : Reg) (v : Word) (s : State) : Host.Outcome State Fault Refusal :=
  match r with
  | .cmd => exec (decode v) s
  | .deadline => .next { s with blk := { s.blk with deadline := v } }
  | .session | .sessionDeadline | .status | .resSeq | .resShort0 | .resShort1 | .resLong0 | .resLong1 | .resLong2
  | .resLong3 | .cntHeaders | .cntShort | .cntLong | .reserved3C => .next s

/-- `MemWrite` (R80). An illegal write answers `err = 1` and has no effect. While `rst` is 1 a legal write is ignored
with `err = 0` (R340). -/
def busWrite (r : BusRequest) (s : State) : Host.Outcome State Fault Refusal :=
  if legalAccess r then
    if s.rst then .next (s.respond (.write false)) else answerWrite (writeReg (regAt r.addr) r.wdata s)
  else .next (s.respond (.write true))

/-- One host access (R80). -/
def busAccess (r : BusRequest) (s : State) : Host.Outcome State Fault Refusal :=
  if r.we then busWrite r s else .next (busRead r s)

/-- The outcome of the block's turn as an outcome of the machine. -/
def ofBlock (s : State) : Except Fault Block → Host.Outcome State Fault Refusal
  | .ok b => .next { s with blk := b }
  | .error f => .fault f

/-- While `rst` is 1 the block holds the reset state (R340). -/
def State.held (s : State) : State := if s.rst then { s with blk := Block.reset } else s

/-- The next event: the first that State lists, else a free one. -/
def State.nextEvent (s : State) : Event :=
  match s.inputs with
  | e :: _ => e
  | [] => Config.environment s.draws

/-- The state with its next event used up. -/
def State.consume (s : State) : State :=
  match s.inputs with
  | _ :: rest => { s with inputs := rest }
  | [] => { s with draws := s.draws + 1 }

/-- What one event does. -/
def serve (p : Params) (e : Event) (s : State) : Host.Outcome State Fault Refusal :=
  match e with
  | .bus r => busAccess r s
  | .block rx => ofBlock s (blockStep p rx s.now s.blk)
  | .time t => .next { s with now := timeAfter p t s.now s.blk }
  | .rst level => .next ({ s with rst := level } : State).held

/-- One step of the machine with parameters `p`: hold the reset state while `rst` is 1, fault on a state that breaks an
invariant of R69, and serve the next event. -/
def stepWith (p : Params) (s : State) : Host.Outcome State Fault Refusal :=
  if s.held.blk.lawful p then serve p s.nextEvent s.held.consume else .fault .invariantBroken

/-- The access that writes the command word `w` to CMD. -/
def commandRequest (w : Word) : BusRequest := { we := true, addr := 0, size := 4, wdata := w }

/-- The state whose next event is the write of the command word `w` to CMD, with `rst` at 0 so that the block takes
it. -/
def State.withCommand (s : State) (w : Word) : State :=
  { s with rst := false, inputs := .bus (commandRequest w) :: s.inputs }

end Sys2Proof.Machine
end

