-- ==== Sys2Proof/Machine/Step.lean ====
section
/-! DEFINITION. One step of the machine, and where it finds its next command. -/

namespace Sys2Proof.Machine

/-- One step: the next event at the ports of the block that the build's parameters describe. -/
def step (s : State) : Host.Outcome State Fault Refusal := stepWith Config.params s

/-- The block fetches nothing (R96): a command runs when the host writes it to CMD. So the word is placed as the next
event, a CMD write (notes/assumptions/5.md). -/
def State.withFetchWord (s : State) (nbits w : Nat) : State := s.withCommand (tableWord nbits w)

end Sys2Proof.Machine
end

