-- ==== Sys2Proof/Machine/AirSide.lean ====
section
/-! DEFINITION. What stands on the line: Manchester symbols (30_encoding.md R107, R108), the bit stream of a frame (R109),
and the stream driven through the header synchronizer. The environment's side: no step of the block reads it. -/

namespace Sys2Proof.Machine

/-- The levels of the first and the second half of a symbol of value `bit` under polarity `pol` (R108). -/
def halfLevels (bit pol : Bool) : Bool × Bool := (bit ^^ pol ^^ true, bit ^^ pol)

/-- The level of a line that carries the symbols `sym`, each of two halves of `half` µs, at time `time` (R107, R108). -/
def lineLevel (half : Nat) (pol : Bool) (sym : Nat → Bool) (time : Nat) : Bool :=
  let k := time / (2 * half)
  if time % (2 * half) < half then (halfLevels (sym k) pol).1 else (halfLevels (sym k) pol).2

/-- The logical bits of one frame: `n` ones, the synchronization zero, and the data bits (R109). -/
def frameStream (n : Nat) (data : List Bool) : List Bool := List.replicate n true ++ false :: data

/-- Byte `k` of the data bits: the first of its eight bits is bit 7 (R86, R109). -/
def byteAt (data : List Bool) (k : Nat) : Byte :=
  BitVec.ofBool (data.getD (8 * k) false) ++ BitVec.ofBool (data.getD (8 * k + 1) false) ++
    BitVec.ofBool (data.getD (8 * k + 2) false) ++ BitVec.ofBool (data.getD (8 * k + 3) false) ++
    BitVec.ofBool (data.getD (8 * k + 4) false) ++ BitVec.ofBool (data.getD (8 * k + 5) false) ++
    BitVec.ofBool (data.getD (8 * k + 6) false) ++ BitVec.ofBool (data.getD (8 * k + 7) false)

/-- The number of bytes a frame has: 16 when byte 1 is the long signature and the session accepts the long family, else 7
(R109, R112). -/
def frameLength (p : Params) (accLong : Bool) (data : List Bool) : Nat :=
  if accLong = true ∧ byteAt data 1 = p.longSig then 16 else 7

/-- The bits of a stream handed to the header synchronizer one by one, as BR.LONG does, for as long as the block stays in
RECEIVING: "No more bits are requested" after that (R137, R173). -/
def feedBits (p : Params) : List Bool → Block → Except Fault Block
  | [], b => .ok b
  | bit :: rest, b =>
    if b.state = .receiving then
      match headerSync p bit b with
      | .ok b' => feedBits p rest b'
      | .error f => .error f
    else .ok b

end Sys2Proof.Machine
end

