-- ==== Sys2Proof/Machine/HostProgram.lean ====
section
/-! DEFINITION. The host's side of the window: addresses (20_memory.md R89), and host programs as bus accesses
(30_encoding.md R115, R116; 46_host_commands.md R288). -/

namespace Sys2Proof.Machine

/-- The host address of a register: the window stands at `P_BASE` (R89). -/
def hostAddress (r : Reg) : Nat := Config.base + r.offset.toNat

/-- `wr <REG>, <value>` (R115). -/
def wr (r : Reg) (v : Word) : BusRequest := { we := true, addr := r.offset, size := 4, wdata := v }

/-- `rd <REG>` (R115). -/
def rd (r : Reg) : BusRequest := { we := false, addr := r.offset, size := 4, wdata := 0 }

/-- The pseudo-instructions of the host's syntax (R116). -/
inductive Pseudo where
  | nop
  | startSession (acceptShort acceptLong polarity : Bool) (ms : Word)
  | decodeOnce
  | snapshot
  | reinit
  | waitDone
  | checkAccepted
  deriving DecidableEq, Repr

/-- The accesses of a pseudo-instruction (R116). `wait_done` is a loop: these are the accesses of one turn, and
`waitsOn` says whether another follows. -/
def Pseudo.expand : Pseudo → List BusRequest
  | .nop => [wr .cmd (encode .nop)]
  | .startSession s l pol ms => [wr .deadline ms, wr .cmd (encode (.startSession s l pol))]
  | .decodeOnce => [wr .cmd (encode .decodeOnce)]
  | .snapshot => [wr .cmd (encode .snapshot)]
  | .reinit => [wr .cmd (encode .reinit)]
  | .waitDone => [rd .status]
  | .checkAccepted => [rd .status]

/-- `wait_done` repeats while the STATUS it read has `(value & 0x7) != 4` (R116). -/
def waitsOn (status : Word) : Bool := status &&& 0x7 != 4

/-- `check_accepted`: bit 8 of the STATUS it read is 0 (R116). -/
def wasAccepted (status : Word) : Bool := !status.getLsbD 8

/-- `startSession(s, l, ms)` of §6, with the session's polarity (R288). -/
def callStartSession (acceptShort acceptLong polarity : Bool) (ms : Word) : List BusRequest :=
  (Pseudo.startSession acceptShort acceptLong polarity ms).expand

/-- The accesses that start `decodeOnce()` of §6 (R288). -/
def callDecodeOnce : List BusRequest := Pseudo.decodeOnce.expand

/-- The accesses that read the result once `wait_done` has ended (R288). -/
def readResult : List BusRequest :=
  [rd .status, rd .resSeq, rd .resShort0, rd .resShort1, rd .resLong0, rd .resLong1, rd .resLong2, rd .resLong3]

/-- `counters()` of §6 (R288). -/
def callCounters : List BusRequest := Pseudo.snapshot.expand ++ [rd .cntHeaders, rd .cntShort, rd .cntLong]

end Sys2Proof.Machine
end

