-- ==== Sys2Proof/Safety.lean ====
section
/-! DEFINITION. What the statements speak of: the states a run can reach (10_state.md R53 to R61, R69;
45_session_controller.md R263), the headers that cover the accepted frames (41_header_sync.md R155), and what the host
sees. -/

namespace Sys2Proof.Machine

/-- What holds of the block in every state that a run reaches, at time `now`. -/
structure Block.Inv (p : Params) (now : Micros) (b : Block) : Prop where
  /-- The state does not fault (R69). -/
  lawful : b.lawful p = true
  /-- `s.run` saturates at the threshold (R54). -/
  run_le : b.recov.run ≤ p.headerThreshold
  /-- `s.in_pre == (s.run < P_HEADER_THRESHOLD)` (R53). -/
  inPre_eq : b.recov.inPre = decide (b.recov.run < p.headerThreshold)
  /-- The synchronization zero is consumed only at the threshold (R152). -/
  run_of_saw0 : b.recov.saw0 = true → b.recov.run = p.headerThreshold
  /-- No data before the synchronization zero (R55, R153). -/
  empty_of_not_saw0 : b.recov.saw0 = false → b.frame.filled = 0 ∧ b.frame.nb = 0 ∧ b.frame.acc = 0
  /-- "A bit is never accumulated once `s.filled == s.target`" (R69). -/
  room : b.state = .receiving → b.frame.filled.toNat < b.frame.target.bytes
  /-- DECODING is entered with a complete frame only (R255). -/
  full : b.state = .decoding → b.frame.filled.toNat = b.frame.target.bytes ∧ b.frame.nb = 0 ∧ b.recov.saw0 = true
  /-- The family is decided with the second byte (R172). -/
  famDecided_eq : b.frame.famDecided = decide (2 ≤ b.frame.filled.toNat)
  /-- A target of 16 needs the long signature (R172), and within an attempt a session that accepts the family (R220). -/
  long_target : b.frame.target = .long →
    b.frame.famDecided = true ∧ b.frame.raw[1] = p.longSig ∧ (b.inAttempt = true → b.sess.accLong = true)
  /-- "Bytes not yet completed in this attempt hold 0" (R58). -/
  unfilled_zero : ∀ i : Fin 16, b.frame.filled.toNat ≤ i.val → b.frame.raw[i] = 0
  /-- While BUSY the result registers are clear (R263). -/
  result_of_busy : b.busy = true → b.result = Result.none
  /-- IDLE shows no result (R105). -/
  result_of_idle : b.state = .idle → b.result = Result.none
  /-- DONE shows one of the four results (R263, R318). -/
  kind_of_done : b.state = .done →
    b.result.kind = .thermoHygro ∨ b.result.kind = .weatherStation ∨ b.result.kind = .timeout ∨ b.result.kind = .misuse
  /-- MISUSE_CAUSE is set exactly for MISUSE (R39, R258). -/
  cause_iff : b.result.kind = .misuse ↔ b.result.cause ≠ .none
  /-- A request runs only in a session that accepts a family (R282). -/
  session_of_busy : b.busy = true → b.sess.cfgValid = true ∧ (b.sess.accShort = true ∨ b.sess.accLong = true)
  /-- `s.err` is 1 "only between the violation and the next attempt start" (R56). -/
  no_err : b.inAttempt = true → b.recov.err = false
  /-- No stored instant is in the future, so an elapsed time is "never negative" (R32). -/
  tCall_le : b.tCall ≤ now
  /-- As `tCall_le`, for the start of a delay. -/
  tRef_le : b.recov.tRef ≤ now
  /-- A delay is not waited out longer than it lasts: its step "fires at the first instant" (R132, R133). -/
  delay_due : ∀ d, pendingDelay p b = some d → (now - b.recov.tRef).toNat ≤ d

/-- What holds of the machine in every state that a run reaches. -/
structure State.Inv (s : State) : Prop where
  /-- While `rst` is 1 the block holds the reset state (R340). -/
  reset_of_rst : s.rst = true → s.blk = Block.reset
  /-- The block's invariant. -/
  blk : s.blk.Inv Config.params s.now

/-- 1 when the attempt that is running has found its header, else 0. -/
def Block.pendingHeader (b : Block) : Nat := if b.inAttempt = true ∧ b.recov.inPre = false then 1 else 0

/-- Every accepted frame, and the frame that may yet be accepted, has a header that was counted (R155). -/
def Block.HeadersCover (b : Block) : Prop :=
  b.cnt.short.toNat + b.cnt.long.toNat + b.pendingHeader ≤ b.cnt.headers.toNat

/-- What the host would read at every register now (R34, R81); while `rst` is 1, the reset values (R340). -/
def State.window (s : State) (r : Reg) : Word := readReg r s.held.blk

/-- The machine with another value in the model's ghost. -/
def State.withGhost (k : Option AttemptOutcome) (s : State) : State := { s with blk := { s.blk with lastAbort := k } }

/-- The block with other bytes in RawFrame. -/
def Block.withRaw (raw : Vector Byte 16) (b : Block) : Block := { b with frame := { b.frame with raw := raw } }

/-- The session with another deadline, and the request with another start: what no step inside an attempt reads
(R253). -/
def Block.withDeadline (tCall : Micros) (dlMs : Word) (b : Block) : Block :=
  { b with tCall := tCall, sess := { b.sess with dlMs := dlMs } }

/-- An event that does not end the wait of a block on a line at `level`: time, a host access, a block turn that draws
`level`, or `rst` driven to 0 (R350: "The only escape is `rst`"). -/
def quietAt (level : Bool) : Event → Bool
  | .time _ => true
  | .block rx => rx == level
  | .bus _ => true
  | .rst r => !r

/-- The transitions of the controller (R250): a step leaves the state or takes one of the table's. -/
def transitionAllowed : CtlState → CtlState → Bool
  | .idle, .idle | .idle, .searching | .idle, .done => true
  | .searching, .searching | .searching, .receiving | .searching, .done | .searching, .idle => true
  | .receiving, .receiving | .receiving, .searching | .receiving, .decoding | .receiving, .idle => true
  | .decoding, .decoding | .decoding, .searching | .decoding, .done | .decoding, .idle => true
  | .done, .done | .done, .searching | .done, .idle => true
  | .idle, .receiving | .idle, .decoding | .searching, .decoding | .receiving, .done
  | .decoding, .receiving | .done, .receiving | .done, .decoding => false

end Sys2Proof.Machine
end

