-- ==== Sys2Proof/Certificates/Slice0/Obligations.lean ====
section
/-! DEFINITION. The statements for the provers. Each docstring names the rules of spec/ that the statement formalises. -/

open Sys2Proof Sys2Proof.Machine

/-! ### Encoding -/

/-- R101, R103: a word of every opcode decodes to its command (30_encoding.md §1; the words of 95_test_vectors.md §7). -/
def Obligations.SpecWordsDecode : Prop :=
  decode 0x00000000 = .nop ∧ decode 0x00000101 = .startSession true false false ∧
  decode 0x00000301 = .startSession true true false ∧ decode 0x00000701 = .startSession true true true ∧
  decode 0x00000401 = .startSession false false true ∧ decode 0x00000002 = .decodeOnce ∧
  decode 0xFFFFFFF3 = .snapshot ∧ decode 0x00000004 = .reinit ∧ decode 0x00000005 = .reserved5 ∧
  decode 0x00000006 = .reserved6 ∧ decode 0x00000007 = .reserved7 ∧ decode 0x00000008 = .reserved8 ∧
  decode 0x00000009 = .reserved9 ∧ decode 0x0000000A = .reservedA ∧ decode 0x0000000B = .reservedB ∧
  decode 0x0000000C = .reservedC ∧ decode 0x0000000D = .reservedD ∧ decode 0x0000000E = .reservedE ∧
  decode 0x0000000F = .reservedF

/-- R100, R101, R102, R114: decoding an encoded command gives it back, as a word and at the head of any bytes. -/
def Obligations.DecodeOfEncode : Prop :=
  ∀ (i : Instr) (rest : List Byte), i.wf = true →
    decode (encode i) = i ∧ decodeBytes (encodeBytes i ++ rest) = .ok (i, rest)

/-- R100: `w[3:0]` alone selects the command, the operands are bits 8, 9 and 10, and every word is a command. -/
def Obligations.WordSelectsCommand : Prop :=
  ∀ w : Word, (decode w).opcode = w.extractLsb' 0 4 ∧
    (w.extractLsb' 0 4 = 1 → decode w = .startSession (w.getLsbD 8) (w.getLsbD 9) (w.getLsbD 10)) ∧
    ∀ w' : Word, w.extractLsb' 0 4 ≠ 1 → w'.extractLsb' 0 4 = w.extractLsb' 0 4 → decode w' = decode w

/-- R103: the ignored bits change nothing that a command does, and the encoder writes them as 0. -/
def Obligations.ReservedBitsIgnored : Prop :=
  (∀ (w w' : Word) (s : State), w.extractLsb' 0 4 = w'.extractLsb' 0 4 →
    (w.extractLsb' 0 4 = 1 → w.extractLsb' 8 3 = w'.extractLsb' 8 3) →
    exec (decode w) s = exec (decode w') s) ∧
  ∀ i : Instr, (encode i).extractLsb' 4 4 = 0 ∧ (encode i).extractLsb' 11 21 = 0 ∧
    (i.opcode ≠ 1 → (encode i).extractLsb' 8 3 = 0)

/-- R114: the decoder rejects exactly the lists of fewer than four bytes. -/
def Obligations.OnlyShortBytesRejected : Prop :=
  ∀ bytes : List Byte, decodeBytes bytes = .error .truncated ↔ bytes.length < 4

/-! ### The step and the host bus -/

/-- A step runs the decoded command (R83): where the next event writes a command word to CMD, the step is `exec` of the
decoded command on the state whose event is used up, answered with `err = 0`. The word that `withFetchWord` places is such
an event. -/
def Obligations.StepRunsDecodedCommand : Prop :=
  (∀ (s : State) (w : Word), s.rst = false → s.blk.lawful Config.params = true → s.nextEvent = .bus (commandRequest w) →
    step s = answerWrite (exec (decode w) s.consume)) ∧
  ∀ (s : State) (nbits w : Nat), s.blk.lawful Config.params = true →
    step (s.withFetchWord nbits w) = answerWrite (exec (decode (tableWord nbits w)) { s with rst := false })

/-- R80: a legal access is 4 bytes wide and 4-byte aligned; a read answers the register, a write runs `write_reg`. An
illegal access changes no state and answers `bus_err` = 1, a read with 0. -/
def Obligations.AccessLegality : Prop :=
  ∀ (s : State) (r : BusRequest), s.rst = false → s.blk.lawful Config.params = true → s.nextEvent = .bus r →
    (r.size = 4 ∧ r.addr.extractLsb' 0 2 = 0 →
      (r.we = false → step s = .next (s.consume.respond (.read (readReg (regAt r.addr) s.blk) false))) ∧
      (r.we = true → step s = answerWrite (writeReg (regAt r.addr) r.wdata s.consume))) ∧
    (¬(r.size = 4 ∧ r.addr.extractLsb' 0 2 = 0) →
      (r.we = false → step s = .next (s.consume.respond (.read 0 true))) ∧
      (r.we = true → step s = .next (s.consume.respond (.write true))))

/-- R81: a read at a register's offset answers the register and has no side effect; CMD and offset 0x3C read 0. -/
def Obligations.ReadHasNoSideEffect : Prop :=
  ∀ (s : State) (r : Reg), s.rst = false → s.blk.lawful Config.params = true → s.nextEvent = .bus (rd r) →
    ∃ t, step s = .next t ∧ t.response = some (.read (readReg r s.blk) false) ∧ t.blk = s.blk ∧ t.now = s.now ∧
      t.rst = s.rst ∧ (∀ r', t.window r' = s.window r') ∧ (r = .cmd ∨ r = .reserved3C → readReg r s.blk = 0)

/-- R82: DEADLINE stores, CMD executes, and a write to any other register is ignored with `err` = 0. -/
def Obligations.WriteRegister : Prop :=
  ∀ (s : State) (r : Reg) (v : Word), s.rst = false → s.blk.lawful Config.params = true → s.nextEvent = .bus (wr r v) →
    (r = .cmd → step s = answerWrite (exec (decode v) s.consume)) ∧
    (r = .deadline →
      step s = .next (({ s.consume with blk := { s.blk with deadline := v } } : State).respond (.write false))) ∧
    (r ≠ .cmd → r ≠ .deadline → step s = .next (s.consume.respond (.write false)))

/-- R289: a DEADLINE write is accepted in every state, stores the value, and touches nothing of a running request. -/
def Obligations.DeadlineWriteOnlyStores : Prop :=
  ∀ (s : State) (v : Word), s.rst = false → s.blk.lawful Config.params = true → s.nextEvent = .bus (wr .deadline v) →
    ∃ t, step s = .next t ∧ t.response = some (.write false) ∧ t.window .deadline = v ∧
      (∀ r, r ≠ .deadline → t.window r = s.window r) ∧ t.blk = { s.blk with deadline := v } ∧ t.now = s.now

/-- R39, R104, R105, R33: the fields of STATUS with their codes, 0 in its other bits, and the `done` output. -/
def Obligations.StatusFields : Prop :=
  (∀ b : Block,
    (readReg .status b).extractLsb' 0 3 =
      (match b.state with | .idle => 0 | .searching => 1 | .receiving => 2 | .decoding => 3 | .done => 4) ∧
    (readReg .status b).getLsbD 3 = b.busy ∧
    (b.busy = true ↔ b.state = .searching ∨ b.state = .receiving ∨ b.state = .decoding) ∧
    (readReg .status b).extractLsb' 4 4 =
      (match b.result.kind with
        | .none => 0 | .thermoHygro => 1 | .weatherStation => 2 | .decodeError => 3 | .timeout => 4 | .misuse => 5) ∧
    (readReg .status b).getLsbD 8 = b.cmdRejected ∧
    (readReg .status b).extractLsb' 9 3 = 0 ∧
    (readReg .status b).extractLsb' 12 4 =
      (match b.result.cause with | .none => 0 | .noSession => 1 | .noFamily => 2) ∧
    (readReg .status b).extractLsb' 16 16 = 0) ∧
  ∀ s : State, (s.rst = false → (s.done = true ↔ s.blk.state = .done)) ∧ (s.rst = true → s.done = false)

/-- R116, R288: the accesses that the host's pseudo-instructions stand for, what `wait_done` waits for, and what
`check_accepted` reads. -/
def Obligations.HostSyntaxExpands : Prop :=
  (∀ (s l pol : Bool) (ms : Word), (Pseudo.startSession s l pol ms).expand =
    [wr .deadline ms,
      wr .cmd (0x1 ||| (BitVec.ofBool s).setWidth 32 <<< 8 ||| (BitVec.ofBool l).setWidth 32 <<< 9 |||
        (BitVec.ofBool pol).setWidth 32 <<< 10)]) ∧
  Pseudo.nop.expand = [wr .cmd 0x00000000] ∧ Pseudo.decodeOnce.expand = [wr .cmd 0x00000002] ∧
  Pseudo.snapshot.expand = [wr .cmd 0x00000003] ∧ Pseudo.reinit.expand = [wr .cmd 0x00000004] ∧
  Pseudo.waitDone.expand = [rd .status] ∧ Pseudo.checkAccepted.expand = [rd .status] ∧
  ∀ b : Block, (waitsOn (readReg .status b) = true ↔ b.state ≠ .done) ∧
    (wasAccepted (readReg .status b) = true ↔ b.cmdRejected = false)

/-! ### The commands: what each does, and that it does nothing else -/

/-- R280: OP = 0x0 is NOP; NOP writes CMD_REJECTED = 0 and nothing else, in every state. -/
def Obligations.NopOnlyClearsRejected : Prop :=
  (∀ w : Word, w.extractLsb' 0 4 = 0 → decode w = .nop) ∧
  ∀ s : State, exec .nop s = .next { s with blk := { s.blk with cmdRejected := false } }

/-- R281: START_SESSION latches the session, outside a request, and every other part of the state stays; SESSION and
SESSION_DEADLINE read as R281 says; while BUSY it is rejected. The session stays latched until the next START_SESSION,
REINIT or `rst` (R37). -/
def Obligations.StartSessionLatches : Prop :=
  (∀ w : Word, w.extractLsb' 0 4 = 1 → decode w = .startSession (w.getLsbD 8) (w.getLsbD 9) (w.getLsbD 10)) ∧
  (∀ (s : State) (a l pol : Bool), s.blk.busy = false →
    ∃ t, exec (.startSession a l pol) s = .next t ∧
      t = { s with blk := { s.blk with
        cmdRejected := false
        sess := { cfgValid := true, accShort := a, accLong := l, pol := pol, dlMs := s.blk.deadline } } } ∧
      readReg .session t.blk = 0#21 ++ BitVec.ofBool pol ++ BitVec.ofBool l ++ BitVec.ofBool a ++ 0#7 ++ 1#1 ∧
      readReg .sessionDeadline t.blk = readReg .deadline s.blk) ∧
  (∀ (s : State) (a l pol : Bool), s.blk.busy = true →
    exec (.startSession a l pol) s = .next { s with blk := { s.blk with cmdRejected := true } }) ∧
  ∀ s t : State, s.rst = false → step s = .next t → s.nextEvent ≠ .rst true →
    (∀ w, s.nextEvent = .bus (commandRequest w) →
      (∀ a l pol, decode w ≠ .startSession a l pol) ∧ decode w ≠ .reinit) →
    t.blk.sess = s.blk.sess

/-- R282: DECODE_ONCE outside a request: MISUSE with NO_SESSION, MISUSE with NO_FAMILY, or a request that starts at the
present time, the result cleared in each; every other part of the state stays. While BUSY it is rejected. -/
def Obligations.DecodeOnceStartsOrMisuses : Prop :=
  (∀ w : Word, w.extractLsb' 0 4 = 2 → decode w = .decodeOnce) ∧
  ∀ s : State,
    (s.blk.busy = true → exec .decodeOnce s = .next { s with blk := { s.blk with cmdRejected := true } }) ∧
    (s.blk.busy = false → s.blk.sess.cfgValid = false → exec .decodeOnce s = .next { s with blk := { s.blk with
        cmdRejected := false, state := .done
        result := { kind := .misuse, cause := .noSession, seq := 0, short0 := 0, short1 := 0, long0 := 0, long1 := 0,
                    long2 := 0, long3 := 0 } } }) ∧
    (s.blk.busy = false → s.blk.sess.cfgValid = true → s.blk.sess.accShort = false ∧ s.blk.sess.accLong = false →
      exec .decodeOnce s = .next { s with blk := { s.blk with
        cmdRejected := false, state := .done
        result := { kind := .misuse, cause := .noFamily, seq := 0, short0 := 0, short1 := 0, long0 := 0, long1 := 0,
                    long2 := 0, long3 := 0 } } }) ∧
    (s.blk.busy = false → s.blk.sess.cfgValid = true → s.blk.sess.accShort = true ∨ s.blk.sess.accLong = true →
      exec .decodeOnce s = .next { s with blk := { s.blk with
        cmdRejected := false, state := .searching, tCall := s.now
        result := { kind := .none, cause := .none, seq := 0, short0 := 0, short1 := 0, long0 := 0, long1 := 0,
                    long2 := 0, long3 := 0 } } })

/-- R283: SNAPSHOT copies the three live counters in one step, in every state, and changes nothing else; the copies stay
until the next SNAPSHOT, REINIT or `rst`. -/
def Obligations.SnapshotCopiesCounters : Prop :=
  (∀ w : Word, w.extractLsb' 0 4 = 3 → decode w = .snapshot) ∧
  (∀ s : State, ∃ t, exec .snapshot s = .next t ∧
    t = { s with blk := { s.blk with cmdRejected := false, snap := s.blk.cnt } } ∧
    readReg .cntHeaders t.blk = s.blk.cnt.headers ∧ readReg .cntShort t.blk = s.blk.cnt.short ∧
    readReg .cntLong t.blk = s.blk.cnt.long) ∧
  ∀ s t : State, s.rst = false → step s = .next t → s.nextEvent ≠ .rst true →
    (∀ w, s.nextEvent = .bus (commandRequest w) → decode w ≠ .snapshot ∧ decode w ≠ .reinit) →
    t.blk.snap = s.blk.snap

/-- R284: REINIT, outside a request, puts every state and register back; every register reads 0 and no port changes.
While BUSY it is rejected. -/
def Obligations.ReinitRestoresReset : Prop :=
  (∀ w : Word, w.extractLsb' 0 4 = 4 → decode w = .reinit) ∧
  ∀ s : State,
    (s.blk.busy = false →
      ∃ t, exec .reinit s = .next t ∧ t = { s with blk := Block.reset } ∧ ∀ r, readReg r t.blk = 0) ∧
    (s.blk.busy = true → exec .reinit s = .next { s with blk := { s.blk with cmdRejected := true } })

/-- R285: the reserved opcodes 0x5 to 0xF set CMD_REJECTED = 1 and do nothing else, in every state; the bus access that
carries one is answered with `err` = 0. -/
def Obligations.ReservedOnlyRejects : Prop :=
  (∀ w : Word, 5 ≤ (w.extractLsb' 0 4).toNat → 5 ≤ (decode w).opcode.toNat) ∧
  ∀ (i : Instr) (s : State), 5 ≤ i.opcode.toNat →
    exec i s = .next { s with blk := { s.blk with cmdRejected := true } } ∧
    answerWrite (exec i s) =
      .next (({ s with blk := { s.blk with cmdRejected := true } } : State).respond (.write false))

/-- R286: which commands are accepted, and that a rejected one does nothing but set CMD_REJECTED = 1. -/
def Obligations.AcceptTable : Prop :=
  ∀ (i : Instr) (s : State), ∃ t, exec i s = .next t ∧
    (t.blk.cmdRejected = true ↔ 5 ≤ i.opcode.toNat ∨ (s.blk.busy = true ∧ i.opcode.toNat ∈ [1, 2, 4])) ∧
    (t.blk.cmdRejected = true → t = { s with blk := { s.blk with cmdRejected := true } })

/-- R287: CMD_REJECTED reflects the most recent CMD write; other events leave it, and `rst` sets it to 0. -/
def Obligations.RejectedReflectsLastCommand : Prop :=
  ∀ s t : State, s.rst = false → step s = .next t →
    (∀ w, s.nextEvent = .bus (commandRequest w) →
      (t.blk.cmdRejected = true ↔
        5 ≤ (decode w).opcode.toNat ∨ (s.blk.busy = true ∧ (decode w).opcode.toNat ∈ [1, 2, 4]))) ∧
    (s.nextEvent = .rst true → t.blk.cmdRejected = false) ∧
    ((∀ w, s.nextEvent ≠ .bus (commandRequest w)) → s.nextEvent ≠ .rst true →
      t.blk.cmdRejected = s.blk.cmdRejected)

/-! ### Reset -/

/-- R66, R342: what `rst` leaves, field by field, and that REINIT leaves the same. -/
def Obligations.ResetState : Prop :=
  ∀ s : State, s.held.blk.lawful Config.params = true → s.nextEvent = .rst true →
    ∃ t, step s = .next t ∧ t.rst = true ∧ t.now = s.now ∧ (∀ r, t.window r = 0) ∧ t.done = false ∧
      t.blk.deadline = 0 ∧ t.blk.cmdRejected = false ∧ t.blk.state = .idle ∧ t.blk.tCall = 0 ∧
      t.blk.sess = { cfgValid := false, accShort := false, accLong := false, pol := false, dlMs := 0 } ∧
      t.blk.cnt = { headers := 0, short := 0, long := 0 } ∧ t.blk.snap = { headers := 0, short := 0, long := 0 } ∧
      t.blk.result = { kind := .none, cause := .none, seq := 0, short0 := 0, short1 := 0, long0 := 0, long1 := 0,
                       long2 := 0, long3 := 0 } ∧
      t.blk.recov = { expected := true, inPre := true, run := 0, saw0 := false, err := false, ph := .waitLevel,
                      tRef := 0 } ∧
      (∀ i : Fin 16, t.blk.frame.raw[i] = 0) ∧ t.blk.frame.filled = 0 ∧ t.blk.frame.acc = 0 ∧ t.blk.frame.nb = 0 ∧
      t.blk.frame.target = .short ∧ t.blk.frame.famDecided = false ∧
      ∀ u : State, u.blk.busy = false → exec .reinit u = .next { u with blk := t.blk }

/-- R340: asserting `rst` ends everything at once; while it is 1 no block step is enabled, a read answers the reset value
and a write is ignored, both with `err` = 0; when it falls the block is in IDLE. -/
def Obligations.HeldInReset : Prop :=
  (∀ s : State, s.held.blk.lawful Config.params = true → s.nextEvent = .rst true →
    ∃ t, step s = .next t ∧ t.rst = true ∧ t.blk = Block.reset ∧ t.done = false) ∧
  ∀ s : State, s.rst = true →
    (∀ rx, s.nextEvent = .block rx → step s = .next s.held.consume) ∧
    (∀ r, s.nextEvent = .bus (rd r) →
      step s = .next (s.held.consume.respond (.read (readReg r State.reset.blk) false))) ∧
    (∀ r v, s.nextEvent = .bus (wr r v) → step s = .next (s.held.consume.respond (.write false))) ∧
    (s.nextEvent = .rst false →
      ∃ t, step s = .next t ∧ t.rst = false ∧ t.blk = Block.reset ∧ t.blk.state = .idle ∧ t.blk.busy = false) ∧
    s.held.consume.blk = Block.reset

/-- The reset state is one of the states of `Inv`, and its counters are covered. -/
def Obligations.ResetMeetsInvariant : Prop :=
  State.reset.Inv ∧ State.reset.blk.HeadersCover

/-! ### The bit recovery engine -/

/-- R131: BR.POLL ends the wait at the first poll that finds the awaited level, and else changes nothing. -/
def Obligations.PollWaitsForLevel : Prop :=
  ∀ (p : Params) (rx : Bool) (now : Micros) (b : Block), b.state = .receiving → b.recov.ph = .waitLevel →
    (rx = b.recov.expected →
      blockStep p rx now b = .ok { b with recov := { b.recov with tRef := now, ph := .waitShort } }) ∧
    (rx ≠ b.recov.expected → blockStep p rx now b = .ok b)

/-- R132: BR.SHORT runs once the short delay has passed; a line that left the awaited level ends the attempt with
WaveformViolation and `s.err` = 1, and else the long delay starts. `lastAbort` is the ghost that R256 allows
(notes/assumptions/9.md). -/
def Obligations.ShortDelayCheck : Prop :=
  ∀ (p : Params) (rx : Bool) (now : Micros) (b : Block), b.state = .receiving → b.recov.ph = .waitShort →
    ((now - b.recov.tRef).toNat < p.shortDelayUs → blockStep p rx now b = .ok b) ∧
    (p.shortDelayUs ≤ (now - b.recov.tRef).toNat →
      (rx = b.recov.expected →
        blockStep p rx now b = .ok { b with recov := { b.recov with tRef := now, ph := .waitLong } }) ∧
      (rx ≠ b.recov.expected →
        blockStep p rx now b = .ok { b with
          recov := { b.recov with err := true }, state := .searching, lastAbort := some .waveformViolation }))

/-- R133 with the truth table of R134: once the long delay has passed, the new awaited level is the inverse of the sample
and the bit handed on is that level XOR the polarity. -/
def Obligations.LongDelayEmitsBit : Prop :=
  ∀ (p : Params) (rx : Bool) (now : Micros) (b : Block), b.state = .receiving → b.recov.ph = .waitLong →
    ((now - b.recov.tRef).toNat < p.longDelayUs → blockStep p rx now b = .ok b) ∧
    (p.longDelayUs ≤ (now - b.recov.tRef).toNat →
      blockStep p rx now b =
        headerSync p (!rx ^^ b.sess.pol) { b with recov := { b.recov with expected := !rx, ph := .waitLevel } })

/-- R135, R352: on a line of symbols of `2 * half` µs, an iteration whose poll ends `eps` after the mid-bit transition of
symbol `k`, with the delays of R352, does not violate, emits the value of symbol `k + 1`, and awaits the level of that
symbol's second half, so that the next poll cannot end before its mid-bit transition. -/
def Obligations.SteadyStateDecodesNextSymbol : Prop :=
  ∀ (p : Params) (half eps delta k : Nat) (sym : Nat → Bool) (b : Block),
    b.state = .receiving → b.recov.ph = .waitLevel → b.recov.expected = (sym k ^^ b.sess.pol) →
    eps + p.shortDelayUs < half → half < eps + p.shortDelayUs + delta + p.longDelayUs →
    eps + p.shortDelayUs + delta + p.longDelayUs < 2 * half →
    let line := lineLevel half b.sess.pol sym
    let poll := k * (2 * half) + half + eps
    let first := poll + p.shortDelayUs
    let b1 := brPoll (line poll) (BitVec.ofNat 64 poll) b
    let b2 := brShort (line first) (BitVec.ofNat 64 (first + delta)) b1
    b1.recov.ph = .waitShort ∧ b2.state = .receiving ∧ b2.recov.ph = .waitLong ∧
    brLong p (line (first + delta + p.longDelayUs)) b2 =
      headerSync p (sym (k + 1))
        { b2 with recov := { b2.recov with expected := sym (k + 1) ^^ b.sess.pol, ph := .waitLevel } } ∧
    (∀ x, x < half → line ((k + 1) * (2 * half) + x) ≠ (sym (k + 1) ^^ b.sess.pol)) ∧
    (∀ x, half ≤ x → x < 2 * half → line ((k + 1) * (2 * half) + x) = (sym (k + 1) ^^ b.sess.pol))

/-- R31: no step but BR.POLL, BR.SHORT and BR.LONG depends on the line, and BR.SHORT and BR.LONG only once due. -/
def Obligations.LineReadOnlyByEngine : Prop :=
  ∀ (p : Params) (rx rx' : Bool) (now : Micros) (b : Block),
    (b.state ≠ .receiving ∨ ∃ d, pendingDelay p b = some d ∧ (now - b.recov.tRef).toNat < d) →
    blockStep p rx now b = blockStep p rx' now b

/-- R32, R261: a time event changes the time alone; `now_us` never decreases, and it cannot pass the instant at which
BR.SHORT or BR.LONG becomes enabled before that step has run, that instant itself and a delay of 0 included (the events
are the model's, notes/assumptions/3.md). -/
def Obligations.TimeStopsAtDueInstant : Prop :=
  ∀ (s : State) (t : Micros), s.rst = false → s.blk.lawful Config.params = true → s.nextEvent = .time t →
    ∃ u, step s = .next u ∧ u = { s.consume with now := u.now } ∧ s.now ≤ u.now ∧ (t ≤ s.now → u.now = s.now) ∧
      (pendingDelay Config.params s.blk = none → s.now ≤ t → u.now = t) ∧
      ∀ d, pendingDelay Config.params s.blk = some d → s.blk.recov.tRef ≤ s.now →
        ((s.now - s.blk.recov.tRef).toNat ≤ d → u.now.toNat ≤ s.blk.recov.tRef.toNat + d) ∧
        (d ≤ (s.now - s.blk.recov.tRef).toNat → u.now = s.now) ∧
        (s.blk.recov.tRef.toNat + d ≤ t.toNat → d ≤ (u.now - u.blk.recov.tRef).toNat)

/-! ### The header synchronizer and the frame accumulator -/

/-- R150, R151, R152: one bit before the synchronization zero; the rule that applies and all it writes. `lastAbort` is
the ghost that R256 allows (notes/assumptions/9.md). -/
def Obligations.HeaderSyncBit : Prop :=
  ∀ (p : Params) (b : Block), b.recov.saw0 = false → b.recov.run ≤ p.headerThreshold →
    (b.recov.run.toNat + 1 < p.headerThreshold.toNat →
      headerSync p true b = .ok { b with recov := { b.recov with run := b.recov.run + 1 } }) ∧
    (b.recov.run.toNat + 1 = p.headerThreshold.toNat →
      headerSync p true b = .ok { b with
        recov := { b.recov with run := b.recov.run + 1, inPre := false }
        cnt := { b.cnt with headers := b.cnt.headers + 1 } }) ∧
    (b.recov.run = p.headerThreshold →
      headerSync p true b = .ok b ∧
      headerSync p false b = .ok { b with recov := { b.recov with saw0 := true } }) ∧
    (b.recov.run < p.headerThreshold →
      headerSync p false b = .ok { b with state := .searching, lastAbort := some .synchronizationFailure })

/-- R154: `n` ones and a zero at an attempt's start: a synchronization failure when `n` is below the threshold, with no
header counted; else frame capture, with one header counted however many ones there were. `lastAbort` is the model's
ghost, which R256 allows (notes/assumptions/9.md). -/
def Obligations.ThresholdBoundary : Prop :=
  ∀ (p : Params) (n : Nat) (b : Block), p.wf = true →
    (n < p.headerThreshold.toNat →
      ∃ t, feedBits p (List.replicate n true ++ [false]) b.attemptStart = .ok t ∧ t.state = .searching ∧
        t.lastAbort = some .synchronizationFailure ∧ t.cnt = b.cnt) ∧
    (p.headerThreshold.toNat ≤ n →
      ∃ t, feedBits p (List.replicate n true ++ [false]) b.attemptStart = .ok t ∧ t.state = .receiving ∧
        t.recov.saw0 = true ∧ t.recov.run = p.headerThreshold ∧ t.recov.inPre = false ∧
        t.frame = RawFrame.empty ∧ t.cnt = { b.cnt with headers := b.cnt.headers + 1 })

/-- R153, R170 to R173: one data bit. Before the eighth it enters at bit 0; the eighth completes the byte, which is
appended, the family is decided with the second byte, and the last byte of the frame goes to DECODING. The last clause is
the MODEL's deduction (notes/assumptions/8.md, DEDUCED from R69, R329 and I1): a bit past the target is a fault, whichever
bit of a byte it is. -/
def Obligations.DataBitAccumulates : Prop :=
  ∀ (p : Params) (bit : Bool) (b : Block), b.recov.saw0 = true →
    let acc : Byte := b.frame.acc.extractLsb' 0 7 ++ BitVec.ofBool bit
    (b.frame.nb ≠ 7 → b.frame.filled.toNat < b.frame.target.bytes →
      headerSync p bit b = .ok { b with frame := { b.frame with acc := acc, nb := b.frame.nb + 1 } }) ∧
    (b.frame.nb = 7 → b.frame.filled.toNat < b.frame.target.bytes →
      ∃ t, headerSync p bit b = .ok t ∧
        t = { b with state := t.state, frame := t.frame } ∧
        t.frame.acc = 0 ∧ t.frame.nb = 0 ∧ t.frame.filled.toNat = b.frame.filled.toNat + 1 ∧
        (∀ i : Fin 16, t.frame.raw[i] = if i.val = b.frame.filled.toNat then acc else b.frame.raw[i]) ∧
        t.frame.famDecided = (b.frame.famDecided || decide (b.frame.filled = 1)) ∧
        t.frame.target =
          (if b.frame.filled = 1 ∧ b.frame.famDecided = false ∧ b.sess.accLong = true ∧ acc = p.longSig
            then .long else b.frame.target) ∧
        t.state = (if t.frame.filled.toNat = t.frame.target.bytes then .decoding else b.state)) ∧
    (b.frame.target.bytes ≤ b.frame.filled.toNat → headerSync p bit b = .error .bitPastTarget)

/-- R86, R109, R112, R174: an attempt that is handed a whole frame stream ends in DECODING with exactly the frame's bytes
in RawFrame, the first bit of each byte in bit 7, after 56 data bits or 128, with one header counted. -/
def Obligations.FrameStreamIsCaptured : Prop :=
  ∀ (p : Params) (n : Nat) (data : List Bool) (b : Block), p.wf = true → p.headerThreshold.toNat ≤ n →
    data.length = 8 * frameLength p b.sess.accLong data →
    ∃ t, feedBits p (frameStream n data) b.attemptStart = .ok t ∧ t.state = .decoding ∧
      t.frame.filled.toNat = frameLength p b.sess.accLong data ∧
      t.frame.target.bytes = frameLength p b.sess.accLong data ∧
      (∀ k : Fin 16, t.frame.raw[k] = if k.val < frameLength p b.sess.accLong data then byteAt data k.val else 0) ∧
      t.cnt = { b.cnt with headers := b.cnt.headers + 1 } ∧ t.sess = b.sess ∧ t.result = b.result ∧
      t.tCall = b.tCall ∧ t.deadline = b.deadline ∧ t.snap = b.snap ∧ t.cmdRejected = b.cmdRejected

/-- R58, R61, R69: within an attempt a completed byte is never written again, the bytes only grow in number, and a
decided target stays; an undecided one can only rise. -/
def Obligations.AttemptOnlyAdds : Prop :=
  ∀ s t : State, s.rst = false → s.blk.Inv Config.params s.now → step s = .next t →
    s.blk.inAttempt = true → t.blk.inAttempt = true →
    s.blk.frame.filled.toNat ≤ t.blk.frame.filled.toNat ∧
    (∀ i : Fin 16, i.val < s.blk.frame.filled.toNat → t.blk.frame.raw[i] = s.blk.frame.raw[i]) ∧
    (s.blk.frame.famDecided = true → t.blk.frame.famDecided = true ∧ t.blk.frame.target = s.blk.frame.target) ∧
    s.blk.frame.target.bytes ≤ t.blk.frame.target.bytes

/-! ### The short-family decoder -/

/-- R190, R191, R197, R199: the first check that fails ends the attempt: the family, then the checksum, then the humidity;
nothing but the controller state is written. `lastAbort` is the ghost that R256 allows (notes/assumptions/9.md). -/
def Obligations.ShortChecksInOrder : Prop :=
  ∀ (p : Params) (rx : Bool) (now : Micros) (b : Block), b.state = .decoding → b.frame.target = .short →
    let sum := checksumShort p.chkMaskSeed
      [b.frame.raw[1], b.frame.raw[2], b.frame.raw[3], b.frame.raw[4], b.frame.raw[5]]
    (b.sess.accShort = false ∨ b.frame.raw[1] ≠ 0x45 →
      blockStep p rx now b = .ok { b with state := .searching, lastAbort := some .unrecognizedFamily }) ∧
    (b.sess.accShort = true → b.frame.raw[1] = 0x45 → sum ≠ b.frame.raw[6] →
      blockStep p rx now b = .ok { b with state := .searching, lastAbort := some .checksumMismatch }) ∧
    (b.sess.accShort = true → b.frame.raw[1] = 0x45 → sum = b.frame.raw[6] → 100 < b.frame.raw[5].toNat →
      blockStep p rx now b = .ok { b with state := .searching, lastAbort := some .rangeViolation })

/-- R200 with R41, R42, R192 to R197, R259: a frame that passes the checks is published whole: every field of the reading
at its place, 0 in the other bits, the sequence number, and one more thermo-hygrometer frame counted. -/
def Obligations.ShortFramePublished : Prop :=
  ∀ (p : Params) (rx : Bool) (now : Micros) (b : Block), b.state = .decoding → b.frame.target = .short →
    b.sess.accShort = true → b.frame.raw[1] = 0x45 →
    checksumShort p.chkMaskSeed
      [b.frame.raw[1], b.frame.raw[2], b.frame.raw[3], b.frame.raw[4], b.frame.raw[5]] = b.frame.raw[6] →
    b.frame.raw[5].toNat ≤ 100 →
    ∃ t, blockStep p rx now b = .ok t ∧
      t = { b with state := .done, cnt := { b.cnt with short := b.cnt.short + 1 }, result := t.result } ∧
      t.result.kind = .thermoHygro ∧ t.result.cause = .none ∧
      readReg .resSeq t = b.cnt.short + b.cnt.long + 1 ∧
      (channelField (readReg .resShort0 t)).toNat = b.frame.raw[3].toNat / 16 % 8 + 1 ∧
      batteryField (readReg .resShort0 t) = b.frame.raw[3].getLsbD 7 ∧
      idField (readReg .resShort0 t) = b.frame.raw[2] ∧
      (tempRawField (readReg .resShort0 t)).toNat = b.frame.raw[3].toNat % 16 * 256 + b.frame.raw[4].toNat ∧
      (readReg .resShort0 t).extractLsb' 4 3 = 0 ∧ (readReg .resShort0 t).extractLsb' 28 4 = 0 ∧
      (tempF10Field (readReg .resShort1 t)).toInt = (b.frame.raw[3].toNat % 16 * 256 + b.frame.raw[4].toNat : Int) - 400 ∧
      humidityField (readReg .resShort1 t) = b.frame.raw[5] ∧ checksumField (readReg .resShort1 t) = b.frame.raw[6] ∧
      readReg .resLong0 t = 0 ∧ readReg .resLong1 t = 0 ∧ readReg .resLong2 t = 0 ∧ readReg .resLong3 t = 0

/-- R198: with the accumulator seed that follows from it, every mask seed gives the sample packet of §8 its checksum 0x52;
the seeds of the two candidates are those of R7. -/
def Obligations.SampleChecksum : Prop :=
  (∀ maskSeed : Byte, checksumShort maskSeed [0x45, 0x4F, 0x04, 0x4B, 0x0B] = 0x52) ∧
  chkAccSeed 0x64 = 0x5E ∧ chkAccSeed 0x7C = 0x64

/-- R199: under both candidate seeds, a change of one of the five checked bytes changes the checksum. -/
def Obligations.SingleByteCorruptionDetected : Prop :=
  ∀ (maskSeed : Byte) (data : List Byte) (i : Nat) (v : Byte), maskSeed = 0x64 ∨ maskSeed = 0x7C →
    data.length = 5 → i < 5 → v ≠ data.getD i 0 →
    checksumShort maskSeed (data.set i v) ≠ checksumShort maskSeed data

/-- R196: the verdict and the reading do not depend on byte 0, nor on the bytes past the frame. -/
def Obligations.ShortFrameByteZeroUnread : Prop :=
  ∀ (p : Params) (rx : Bool) (now : Micros) (b : Block) (raw : Vector Byte 16), b.state = .decoding →
    b.frame.target = .short → (∀ i : Fin 16, 1 ≤ i.val → i.val ≤ 6 → raw[i] = b.frame.raw[i]) →
    ∃ t, blockStep p rx now b = .ok t ∧ blockStep p rx now (b.withRaw raw) = .ok (t.withRaw raw)

/-! ### The long-family decoder -/

/-- R221, R222: each payload byte is the low nibble of one raw byte above the high nibble of the next; the sentinel is
left out. -/
def Obligations.PayloadRealigned : Prop :=
  ∀ (raw : Vector Byte 16) (j : Fin 14),
    (payload raw)[j].toNat = (raw[j.val + 1]).toNat % 16 * 16 + (raw[j.val + 2]).toNat / 16

/-- R223, R224: the CRC runs over `P[0..12]` from the seed 0xC0; a frame whose `P[13]` differs ends the attempt, and no
field of it reaches a register. `lastAbort` is the ghost that R256 allows (notes/assumptions/9.md). -/
def Obligations.LongCrcMismatchRejected : Prop :=
  ∀ (p : Params) (rx : Bool) (now : Micros) (b : Block), b.state = .decoding → b.frame.target = .long →
    ((payload b.frame.raw).toList.take 13).foldl (fun crc byte => p.crcTable (crc ^^^ byte)) 0xC0 ≠
      (payload b.frame.raw)[13] →
    blockStep p rx now b = .ok { b with state := .searching, lastAbort := some .crcMismatch }

/-- R225 with R43, R259: a frame that passes the CRC is published whole: payload byte `j` at byte `j % 4` of
RES_LONG`(j / 4)`, the sequence number, and one more weather-station frame counted. -/
def Obligations.LongFramePublished : Prop :=
  ∀ (p : Params) (rx : Bool) (now : Micros) (b : Block), b.state = .decoding → b.frame.target = .long →
    ((payload b.frame.raw).toList.take 13).foldl (fun crc byte => p.crcTable (crc ^^^ byte)) 0xC0 =
      (payload b.frame.raw)[13] →
    ∃ t, blockStep p rx now b = .ok t ∧
      t = { b with state := .done, cnt := { b.cnt with long := b.cnt.long + 1 }, result := t.result } ∧
      t.result.kind = .weatherStation ∧ t.result.cause = .none ∧
      readReg .resSeq t = b.cnt.short + b.cnt.long + 1 ∧
      (∀ j : Fin 14, (readReg (longReg ⟨j.val / 4, by omega⟩) t).extractLsb' (8 * (j.val % 4)) 8 =
        (payload b.frame.raw)[j]) ∧
      (readReg .resLong3 t).extractLsb' 16 16 = 0 ∧ readReg .resShort0 t = 0 ∧ readReg .resShort1 t = 0

/-- R226: the verdict and the reading do not depend on `raw[0]`, `raw[1][7:4]` and `raw[15][3:0]`. -/
def Obligations.LongFrameUncoveredBits : Prop :=
  ∀ (p : Params) (rx : Bool) (now : Micros) (b : Block) (raw : Vector Byte 16), b.state = .decoding →
    b.frame.target = .long → raw[1].extractLsb' 0 4 = b.frame.raw[1].extractLsb' 0 4 →
    (∀ i : Fin 16, 2 ≤ i.val → i.val ≤ 14 → raw[i] = b.frame.raw[i]) →
    raw[15].extractLsb' 4 4 = b.frame.raw[15].extractLsb' 4 4 →
    ∃ t, blockStep p rx now b = .ok t ∧ blockStep p rx now (b.withRaw raw) = .ok (t.withRaw raw)

/-! ### The session controller -/

/-- R252, R68: CS.SEARCH times out exactly when `1000 × dl_ms` µs have passed since the request started, with every result
register 0; else it starts an attempt with the values of R68, and nothing else of the spec's state changes. -/
def Obligations.SearchTestsDeadline : Prop :=
  ∀ (p : Params) (rx : Bool) (now : Micros) (b : Block), b.state = .searching →
    (1000 * b.sess.dlMs.toNat ≤ (now - b.tCall).toNat →
      blockStep p rx now b = .ok { b with
        state := .done
        result := { kind := .timeout, cause := .none, seq := 0, short0 := 0, short1 := 0, long0 := 0, long1 := 0,
                    long2 := 0, long3 := 0 } }) ∧
    ((now - b.tCall).toNat < 1000 * b.sess.dlMs.toNat →
      ∃ t, blockStep p rx now b = .ok t ∧
        t = { b with state := .receiving, recov := t.recov, frame := t.frame, lastAbort := t.lastAbort } ∧
        t.recov = { expected := true ^^ b.sess.pol, inPre := true, run := 0, saw0 := false, err := false,
                    ph := .waitLevel, tRef := 0 } ∧
        (∀ i : Fin 16, t.frame.raw[i] = 0) ∧ t.frame.filled = 0 ∧ t.frame.acc = 0 ∧ t.frame.nb = 0 ∧
        t.frame.target = .short ∧ t.frame.famDecided = false)

/-- R260: in IDLE and in DONE the block's turn changes nothing, and the passing of time changes the time alone. -/
def Obligations.QuiescentStates : Prop :=
  ∀ s : State, s.rst = false → s.blk.lawful Config.params = true → s.blk.state = .idle ∨ s.blk.state = .done →
    (∀ rx, s.nextEvent = .block rx → step s = .next s.consume) ∧
    (∀ t, s.nextEvent = .time t → ∃ u, step s = .next u ∧ u = { s.consume with now := u.now } ∧ s.now ≤ u.now)

/-- R250: "No other transition exists". -/
def Obligations.ControllerTransitions : Prop :=
  ∀ s t : State, s.Inv → step s = .next t → transitionAllowed s.blk.state t.blk.state = true

/-- R253, R262: no step inside an attempt depends on the deadline or on when the request started. -/
def Obligations.DeadlineUnreadInAttempt : Prop :=
  ∀ (p : Params) (rx : Bool) (now tCall : Micros) (dlMs : Word) (b t : Block), b.inAttempt = true →
    blockStep p rx now b = .ok t →
    blockStep p rx now (b.withDeadline tCall dlMs) = .ok (t.withDeadline tCall dlMs)

/-- R62: a live counter changes only where its own rule counts, by one, or goes to 0 with the whole block: a header in the
BR.LONG turn whose 1 brings the run to the threshold, a frame in the turn that publishes its reading. -/
def Obligations.CountersCountOnlyTheirEvents : Prop :=
  ∀ s t : State, s.rst = false → step s = .next t →
    t.blk.cnt = s.blk.cnt ∨ t.blk = Block.reset ∨
    ∃ rx, s.nextEvent = .block rx ∧
      ((s.blk.state = .receiving ∧ s.blk.recov.ph = .waitLong ∧
          Config.params.longDelayUs ≤ (s.now - s.blk.recov.tRef).toNat ∧ (!rx ^^ s.blk.sess.pol) = true ∧
          s.blk.recov.saw0 = false ∧ s.blk.recov.run.toNat + 1 = Config.params.headerThreshold.toNat ∧
          t.blk.state = .receiving ∧ t.blk.recov.run = Config.params.headerThreshold ∧
          t.blk.cnt = { s.blk.cnt with headers := s.blk.cnt.headers + 1 }) ∨
        (s.blk.state = .decoding ∧ s.blk.frame.target = .short ∧ t.blk.state = .done ∧
          t.blk.result.kind = .thermoHygro ∧ t.blk.cnt = { s.blk.cnt with short := s.blk.cnt.short + 1 }) ∨
        (s.blk.state = .decoding ∧ s.blk.frame.target = .long ∧ t.blk.state = .done ∧
          t.blk.result.kind = .weatherStation ∧ t.blk.cnt = { s.blk.cnt with long := s.blk.cnt.long + 1 }))

/-- R93, R258: in DONE the result stays, and DONE stays, unless the event is `rst`, DECODE_ONCE or REINIT. -/
def Obligations.ResultStaysInDone : Prop :=
  ∀ s t : State, s.rst = false → s.blk.state = .done → step s = .next t → s.nextEvent ≠ .rst true →
    (∀ w, s.nextEvent = .bus (commandRequest w) → decode w ≠ .decodeOnce ∧ decode w ≠ .reinit) →
    t.blk.state = .done ∧ t.blk.result = s.blk.result

/-- R63, R258: the result registers change only where a request ends, where DECODE_ONCE clears them, or with a reset: a
step that changes them enters DONE or leaves them all clear. -/
def Obligations.ResultChangesOnlyAtFinishOrClear : Prop :=
  ∀ s t : State, s.rst = false → step s = .next t → t.blk.result ≠ s.blk.result →
    t.blk.state = .done ∨ t.blk.result = Result.none

/-- What no step of the block writes: DEADLINE, CMD_REJECTED, the session, the snapshot and `s.t_call` (R36, R44, R50,
R287). -/
def Obligations.BlockStepFrame : Prop :=
  ∀ (p : Params) (rx : Bool) (now : Micros) (b t : Block), blockStep p rx now b = .ok t →
    t.deadline = b.deadline ∧ t.cmdRejected = b.cmdRejected ∧ t.sess = b.sess ∧ t.snap = b.snap ∧ t.tCall = b.tCall ∧
    ∀ r, r = .deadline ∨ r = .session ∨ r = .sessionDeadline ∨ r = .cntHeaders ∨ r = .cntShort ∨ r = .cntLong →
      readReg r t = readReg r b

/-! ### The whole machine -/

/-- R53 to R61, R69, R263: every step keeps the invariant `State.Inv`, from every state that has it. -/
def Obligations.StepKeepsInvariant : Prop :=
  ∀ s t : State, s.Inv → step s = .next t → t.Inv

/-- R329: no state of the invariant faults, and none is refused: the step answers a next state. The faults are those of
notes/assumptions/8.md. -/
def Obligations.NoFaultUnderInvariant : Prop :=
  ∀ s : State, s.Inv → ∃ t, step s = .next t

/-- R155: the headers counted cover the frames accepted, as long as the header counter does not wrap. -/
def Obligations.HeadersCoverAcceptedFrames : Prop :=
  ∀ s t : State, s.Inv → s.blk.HeadersCover → s.blk.cnt.headers ≠ 0xFFFFFFFF → step s = .next t →
    t.blk.HeadersCover

/-- R69, R317: without a passed check no field of a reading reaches a register: a reading that a step shows was there
before, or its frame passed every check of its family in that step. Where one is shown the block is in DONE, the frame in
RawFrame passes the check of the reading's family, and the registers hold that frame's fields. The registers of a reading
are 0 under another RESULT_KIND, a channel shown is in 1..8 and a humidity in 0..100, and DECODE_ERROR is never shown. -/
def Obligations.ReadingsAreWhole : Prop :=
  ∀ s t : State, s.rst = false → step s = .next t →
    (t.blk.result.kind = .thermoHygro → t.blk.result = s.blk.result ∨
      (s.blk.state = .decoding ∧ s.blk.frame.target = .short ∧ s.blk.sess.accShort = true ∧
        s.blk.frame.raw[1] = 0x45 ∧
        checksumShort Config.params.chkMaskSeed
          [s.blk.frame.raw[1], s.blk.frame.raw[2], s.blk.frame.raw[3], s.blk.frame.raw[4], s.blk.frame.raw[5]] =
          s.blk.frame.raw[6] ∧
        s.blk.frame.raw[5].toNat ≤ 100)) ∧
    (t.blk.result.kind = .weatherStation → t.blk.result = s.blk.result ∨
      (s.blk.state = .decoding ∧ s.blk.frame.target = .long ∧
        ((payload s.blk.frame.raw).toList.take 13).foldl (fun crc byte => Config.params.crcTable (crc ^^^ byte)) 0xC0 =
          (payload s.blk.frame.raw)[13])) ∧
    (t.held.blk.result.kind = .thermoHygro →
      t.blk.state = .done ∧ t.blk.frame.target = .short ∧ t.blk.frame.raw[1] = 0x45 ∧
      checksumShort Config.params.chkMaskSeed
        [t.blk.frame.raw[1], t.blk.frame.raw[2], t.blk.frame.raw[3], t.blk.frame.raw[4], t.blk.frame.raw[5]] =
        t.blk.frame.raw[6] ∧
      t.window .resShort0 = sdWord0 t.blk.frame.raw ∧ t.window .resShort1 = sdWord1 t.blk.frame.raw) ∧
    (t.held.blk.result.kind = .weatherStation →
      t.blk.state = .done ∧ t.blk.frame.target = .long ∧ t.blk.frame.raw[1] = Config.params.longSig ∧
      ((payload t.blk.frame.raw).toList.take 13).foldl (fun crc byte => Config.params.crcTable (crc ^^^ byte)) 0xC0 =
        (payload t.blk.frame.raw)[13] ∧
      ∀ j : Fin 14, (t.window (longReg ⟨j.val / 4, by omega⟩)).extractLsb' (8 * (j.val % 4)) 8 =
        (payload t.blk.frame.raw)[j]) ∧
    (t.window .resShort0 ≠ 0 ∨ t.window .resShort1 ≠ 0 → t.held.blk.result.kind = .thermoHygro) ∧
    (t.window .resLong0 ≠ 0 ∨ t.window .resLong1 ≠ 0 ∨ t.window .resLong2 ≠ 0 ∨ t.window .resLong3 ≠ 0 →
      t.held.blk.result.kind = .weatherStation) ∧
    (t.window .resSeq ≠ 0 →
      t.held.blk.result.kind = .thermoHygro ∨ t.held.blk.result.kind = .weatherStation) ∧
    (t.held.blk.result.kind = .thermoHygro →
      1 ≤ (channelField (t.window .resShort0)).toNat ∧ (channelField (t.window .resShort0)).toNat ≤ 8 ∧
      (humidityField (t.window .resShort1)).toNat ≤ 100) ∧
    t.held.blk.result.kind ≠ .decodeError

/-- R256, R313: no behaviour depends on the recorded outcome: with another one, the step goes the same way and the state
after it differs in the ghost alone (the ghost is the model's, notes/assumptions/9.md). -/
def Obligations.AttemptOutcomeInvisible : Prop :=
  ∀ (s t : State) (k : Option AttemptOutcome), s.rst = false → step s = .next t →
    ∃ k', step (s.withGhost k) = .next (t.withGhost k')

/-- R350: a block that waits for a level which the line never has stays in RECEIVING and in that wait, whatever time
passes, however often it polls, and whatever the host reads or writes: only `rst` escapes. One event, then any number. -/
def Obligations.StuckLineHangs : Prop :=
  (∀ s : State, s.rst = false → s.blk.lawful Config.params = true → s.blk.state = .receiving →
    s.blk.recov.ph = .waitLevel → quietAt (!s.blk.recov.expected) s.nextEvent = true →
    ∃ t, step s = .next t ∧ t.rst = false ∧ t.blk.lawful Config.params = true ∧ t.blk.state = .receiving ∧
      t.blk.recov = s.blk.recov ∧ t.blk.frame = s.blk.frame ∧ t.blk.result = s.blk.result ∧ t.done = false) ∧
  ∀ (s : State) (k : Nat), s.rst = false → s.blk.lawful Config.params = true → s.blk.state = .receiving →
    s.blk.recov.ph = .waitLevel → s.inputs.all (quietAt !s.blk.recov.expected) = true → k ≤ s.inputs.length →
    ∃ t, Sys2Proof.core.run k s = .next t ∧ t.blk.state = .receiving ∧ t.blk.recov = s.blk.recov ∧ t.done = false

/-- R350: on a line that stays at `1 ⊕ P` the first iteration of an attempt passes both checks, awaits `P`, and ends the
attempt with SynchronizationFailure; no header is counted. `lastAbort` is the model's ghost, which R256 allows
(notes/assumptions/9.md). -/
def Obligations.LineAtOppositeLevelAborts : Prop :=
  ∀ (p : Params) (b : Block) (t0 t1 t2 : Micros), p.wf = true →
    p.shortDelayUs ≤ (t1 - t0).toNat → p.longDelayUs ≤ (t2 - t1).toNat →
    ∃ b1 b2 b3, blockStep p (true ^^ b.sess.pol) t0 b.attemptStart = .ok b1 ∧
      blockStep p (true ^^ b.sess.pol) t1 b1 = .ok b2 ∧ blockStep p (true ^^ b.sess.pol) t2 b2 = .ok b3 ∧
      b3.state = .searching ∧ b3.lastAbort = some .synchronizationFailure ∧ b3.recov.expected = b.sess.pol ∧
      b3.recov.err = false ∧ b3.cnt = b.cnt

/-- What the events other than a host access do to the machine: the block's turn is the block's step on a fresh draw at
the present time (R31, R250), a time event moves the time alone (R32), and a level of `rst` is taken at once (R340). The
events are the model's (notes/assumptions/2.md and 3.md). -/
def Obligations.StepServesBlockTimeAndReset : Prop :=
  (∀ (s : State) (rx : Bool), s.rst = false → s.blk.lawful Config.params = true → s.nextEvent = .block rx →
    step s = ofBlock s.consume (blockStep Config.params rx s.now s.blk) ∧
    ∀ b, blockStep Config.params rx s.now s.blk = .ok b → step s = .next { s.consume with blk := b }) ∧
  (∀ (s : State) (t : Micros), s.rst = false → s.blk.lawful Config.params = true → s.nextEvent = .time t →
    step s = .next { s.consume with now := timeAfter Config.params t s.now s.blk }) ∧
  (∀ s : State, s.held.blk.lawful Config.params = true → s.nextEvent = .rst true →
    step s = .next { s.consume with rst := true, blk := Block.reset }) ∧
  ∀ s : State, s.held.blk.lawful Config.params = true → s.nextEvent = .rst false →
    step s = .next { s.held.consume with rst := false }

/-- R34: the offsets of the sixteen registers, and that a legal address names the register at its offset. -/
def Obligations.RegisterOffsets : Prop :=
  [Reg.cmd, .deadline, .session, .sessionDeadline, .status, .resSeq, .resShort0, .resShort1, .resLong0, .resLong1,
      .resLong2, .resLong3, .cntHeaders, .cntShort, .cntLong, .reserved3C].map Reg.offset =
    [0x00, 0x04, 0x08, 0x0C, 0x10, 0x14, 0x18, 0x1C, 0x20, 0x24, 0x28, 0x2C, 0x30, 0x34, 0x38, 0x3C] ∧
  ∀ (a : BitVec 6) (r : Reg), a.extractLsb' 0 2 = 0 → (regAt a = r ↔ a = r.offset)
end

