-- ==== Sys2Proof/Laws/State.lean ====
section
/-! SUPPORT. One lemma per field per update of the block and of the machine, each true by unfolding the update once. -/

namespace Sys2Proof.Machine

/-! ### `Block.abort` -/

@[simp] theorem Block.abort_deadline (k : AttemptOutcome) (b : Block) : (b.abort k).deadline = b.deadline := rfl
@[simp] theorem Block.abort_cmdRejected (k : AttemptOutcome) (b : Block) : (b.abort k).cmdRejected = b.cmdRejected := rfl
@[simp] theorem Block.abort_sess (k : AttemptOutcome) (b : Block) : (b.abort k).sess = b.sess := rfl
@[simp] theorem Block.abort_state (k : AttemptOutcome) (b : Block) : (b.abort k).state = .searching := rfl
@[simp] theorem Block.abort_tCall (k : AttemptOutcome) (b : Block) : (b.abort k).tCall = b.tCall := rfl
@[simp] theorem Block.abort_recov (k : AttemptOutcome) (b : Block) : (b.abort k).recov = b.recov := rfl
@[simp] theorem Block.abort_frame (k : AttemptOutcome) (b : Block) : (b.abort k).frame = b.frame := rfl
@[simp] theorem Block.abort_cnt (k : AttemptOutcome) (b : Block) : (b.abort k).cnt = b.cnt := rfl
@[simp] theorem Block.abort_snap (k : AttemptOutcome) (b : Block) : (b.abort k).snap = b.snap := rfl
@[simp] theorem Block.abort_result (k : AttemptOutcome) (b : Block) : (b.abort k).result = b.result := rfl
@[simp] theorem Block.abort_lastAbort (k : AttemptOutcome) (b : Block) : (b.abort k).lastAbort = some k := rfl

/-! ### `Block.attemptStart` -/

@[simp] theorem Block.attemptStart_deadline (b : Block) : (b.attemptStart).deadline = b.deadline := rfl
@[simp] theorem Block.attemptStart_cmdRejected (b : Block) : (b.attemptStart).cmdRejected = b.cmdRejected := rfl
@[simp] theorem Block.attemptStart_sess (b : Block) : (b.attemptStart).sess = b.sess := rfl
@[simp] theorem Block.attemptStart_state (b : Block) : (b.attemptStart).state = .receiving := rfl
@[simp] theorem Block.attemptStart_tCall (b : Block) : (b.attemptStart).tCall = b.tCall := rfl
@[simp] theorem Block.attemptStart_recov (b : Block) : (b.attemptStart).recov = Recovery.fresh b.sess.pol := rfl
@[simp] theorem Block.attemptStart_frame (b : Block) : (b.attemptStart).frame = RawFrame.empty := rfl
@[simp] theorem Block.attemptStart_cnt (b : Block) : (b.attemptStart).cnt = b.cnt := rfl
@[simp] theorem Block.attemptStart_snap (b : Block) : (b.attemptStart).snap = b.snap := rfl
@[simp] theorem Block.attemptStart_result (b : Block) : (b.attemptStart).result = b.result := rfl
@[simp] theorem Block.attemptStart_lastAbort (b : Block) : (b.attemptStart).lastAbort = none := rfl

/-! ### `Block.finish` -/

@[simp] theorem Block.finish_deadline (r : Result) (b : Block) : (b.finish r).deadline = b.deadline := rfl
@[simp] theorem Block.finish_cmdRejected (r : Result) (b : Block) : (b.finish r).cmdRejected = b.cmdRejected := rfl
@[simp] theorem Block.finish_sess (r : Result) (b : Block) : (b.finish r).sess = b.sess := rfl
@[simp] theorem Block.finish_state (r : Result) (b : Block) : (b.finish r).state = .done := rfl
@[simp] theorem Block.finish_tCall (r : Result) (b : Block) : (b.finish r).tCall = b.tCall := rfl
@[simp] theorem Block.finish_recov (r : Result) (b : Block) : (b.finish r).recov = b.recov := rfl
@[simp] theorem Block.finish_frame (r : Result) (b : Block) : (b.finish r).frame = b.frame := rfl
@[simp] theorem Block.finish_cnt (r : Result) (b : Block) : (b.finish r).cnt = b.cnt := rfl
@[simp] theorem Block.finish_snap (r : Result) (b : Block) : (b.finish r).snap = b.snap := rfl
@[simp] theorem Block.finish_result (r : Result) (b : Block) : (b.finish r).result = r := rfl
@[simp] theorem Block.finish_lastAbort (r : Result) (b : Block) : (b.finish r).lastAbort = b.lastAbort := rfl

/-! ### `Block.clearResult` -/

@[simp] theorem Block.clearResult_deadline (b : Block) : (b.clearResult).deadline = b.deadline := rfl
@[simp] theorem Block.clearResult_cmdRejected (b : Block) : (b.clearResult).cmdRejected = b.cmdRejected := rfl
@[simp] theorem Block.clearResult_sess (b : Block) : (b.clearResult).sess = b.sess := rfl
@[simp] theorem Block.clearResult_state (b : Block) : (b.clearResult).state = b.state := rfl
@[simp] theorem Block.clearResult_tCall (b : Block) : (b.clearResult).tCall = b.tCall := rfl
@[simp] theorem Block.clearResult_recov (b : Block) : (b.clearResult).recov = b.recov := rfl
@[simp] theorem Block.clearResult_frame (b : Block) : (b.clearResult).frame = b.frame := rfl
@[simp] theorem Block.clearResult_cnt (b : Block) : (b.clearResult).cnt = b.cnt := rfl
@[simp] theorem Block.clearResult_snap (b : Block) : (b.clearResult).snap = b.snap := rfl
@[simp] theorem Block.clearResult_result (b : Block) : (b.clearResult).result = Result.none := rfl
@[simp] theorem Block.clearResult_lastAbort (b : Block) : (b.clearResult).lastAbort = b.lastAbort := rfl

/-! ### `Block.setRejected` -/

@[simp] theorem Block.setRejected_deadline (v : Bool) (b : Block) : (b.setRejected v).deadline = b.deadline := rfl
@[simp] theorem Block.setRejected_cmdRejected (v : Bool) (b : Block) : (b.setRejected v).cmdRejected = v := rfl
@[simp] theorem Block.setRejected_sess (v : Bool) (b : Block) : (b.setRejected v).sess = b.sess := rfl
@[simp] theorem Block.setRejected_state (v : Bool) (b : Block) : (b.setRejected v).state = b.state := rfl
@[simp] theorem Block.setRejected_tCall (v : Bool) (b : Block) : (b.setRejected v).tCall = b.tCall := rfl
@[simp] theorem Block.setRejected_recov (v : Bool) (b : Block) : (b.setRejected v).recov = b.recov := rfl
@[simp] theorem Block.setRejected_frame (v : Bool) (b : Block) : (b.setRejected v).frame = b.frame := rfl
@[simp] theorem Block.setRejected_cnt (v : Bool) (b : Block) : (b.setRejected v).cnt = b.cnt := rfl
@[simp] theorem Block.setRejected_snap (v : Bool) (b : Block) : (b.setRejected v).snap = b.snap := rfl
@[simp] theorem Block.setRejected_result (v : Bool) (b : Block) : (b.setRejected v).result = b.result := rfl
@[simp] theorem Block.setRejected_lastAbort (v : Bool) (b : Block) : (b.setRejected v).lastAbort = b.lastAbort := rfl

/-! ### `brTurn` -/

@[simp] theorem brTurn_deadline (rx : Bool) (b : Block) : (brTurn rx b).deadline = b.deadline := rfl
@[simp] theorem brTurn_cmdRejected (rx : Bool) (b : Block) : (brTurn rx b).cmdRejected = b.cmdRejected := rfl
@[simp] theorem brTurn_sess (rx : Bool) (b : Block) : (brTurn rx b).sess = b.sess := rfl
@[simp] theorem brTurn_state (rx : Bool) (b : Block) : (brTurn rx b).state = b.state := rfl
@[simp] theorem brTurn_tCall (rx : Bool) (b : Block) : (brTurn rx b).tCall = b.tCall := rfl
@[simp] theorem brTurn_recov (rx : Bool) (b : Block) : (brTurn rx b).recov = { b.recov with expected := nextExpected rx b.recov.expected, ph := .waitLevel } := rfl
@[simp] theorem brTurn_frame (rx : Bool) (b : Block) : (brTurn rx b).frame = b.frame := rfl
@[simp] theorem brTurn_cnt (rx : Bool) (b : Block) : (brTurn rx b).cnt = b.cnt := rfl
@[simp] theorem brTurn_snap (rx : Bool) (b : Block) : (brTurn rx b).snap = b.snap := rfl
@[simp] theorem brTurn_result (rx : Bool) (b : Block) : (brTurn rx b).result = b.result := rfl
@[simp] theorem brTurn_lastAbort (rx : Bool) (b : Block) : (brTurn rx b).lastAbort = b.lastAbort := rfl

/-! ### `hsSync` -/

@[simp] theorem hsSync_deadline (b : Block) : (hsSync b).deadline = b.deadline := rfl
@[simp] theorem hsSync_cmdRejected (b : Block) : (hsSync b).cmdRejected = b.cmdRejected := rfl
@[simp] theorem hsSync_sess (b : Block) : (hsSync b).sess = b.sess := rfl
@[simp] theorem hsSync_state (b : Block) : (hsSync b).state = b.state := rfl
@[simp] theorem hsSync_tCall (b : Block) : (hsSync b).tCall = b.tCall := rfl
@[simp] theorem hsSync_recov (b : Block) : (hsSync b).recov = { b.recov with saw0 := true } := rfl
@[simp] theorem hsSync_frame (b : Block) : (hsSync b).frame = b.frame := rfl
@[simp] theorem hsSync_cnt (b : Block) : (hsSync b).cnt = b.cnt := rfl
@[simp] theorem hsSync_snap (b : Block) : (hsSync b).snap = b.snap := rfl
@[simp] theorem hsSync_result (b : Block) : (hsSync b).result = b.result := rfl
@[simp] theorem hsSync_lastAbort (b : Block) : (hsSync b).lastAbort = b.lastAbort := rfl

/-! ### `shortReading`, `longReading` -/

@[simp] theorem shortReading_kind (cnt : Counters) (raw : Vector Byte 16) : (shortReading cnt raw).kind = .thermoHygro := rfl
@[simp] theorem shortReading_cause (cnt : Counters) (raw : Vector Byte 16) : (shortReading cnt raw).cause = .none := rfl
@[simp] theorem shortReading_seq (cnt : Counters) (raw : Vector Byte 16) : (shortReading cnt raw).seq = cnt.sequence := rfl
@[simp] theorem shortReading_short0 (cnt : Counters) (raw : Vector Byte 16) : (shortReading cnt raw).short0 = sdWord0 raw := rfl
@[simp] theorem shortReading_short1 (cnt : Counters) (raw : Vector Byte 16) : (shortReading cnt raw).short1 = sdWord1 raw := rfl
@[simp] theorem shortReading_long0 (cnt : Counters) (raw : Vector Byte 16) : (shortReading cnt raw).long0 = 0 := rfl
@[simp] theorem shortReading_long1 (cnt : Counters) (raw : Vector Byte 16) : (shortReading cnt raw).long1 = 0 := rfl
@[simp] theorem shortReading_long2 (cnt : Counters) (raw : Vector Byte 16) : (shortReading cnt raw).long2 = 0 := rfl
@[simp] theorem shortReading_long3 (cnt : Counters) (raw : Vector Byte 16) : (shortReading cnt raw).long3 = 0 := rfl

@[simp] theorem longReading_kind (cnt : Counters) (pl : Vector Byte 14) : (longReading cnt pl).kind = .weatherStation := rfl
@[simp] theorem longReading_cause (cnt : Counters) (pl : Vector Byte 14) : (longReading cnt pl).cause = .none := rfl
@[simp] theorem longReading_seq (cnt : Counters) (pl : Vector Byte 14) : (longReading cnt pl).seq = cnt.sequence := rfl
@[simp] theorem longReading_short0 (cnt : Counters) (pl : Vector Byte 14) : (longReading cnt pl).short0 = 0 := rfl
@[simp] theorem longReading_short1 (cnt : Counters) (pl : Vector Byte 14) : (longReading cnt pl).short1 = 0 := rfl
@[simp] theorem longReading_long0 (cnt : Counters) (pl : Vector Byte 14) : (longReading cnt pl).long0 = packWord pl[0] pl[1] pl[2] pl[3] := rfl
@[simp] theorem longReading_long1 (cnt : Counters) (pl : Vector Byte 14) : (longReading cnt pl).long1 = packWord pl[4] pl[5] pl[6] pl[7] := rfl
@[simp] theorem longReading_long2 (cnt : Counters) (pl : Vector Byte 14) : (longReading cnt pl).long2 = packWord pl[8] pl[9] pl[10] pl[11] := rfl
@[simp] theorem longReading_long3 (cnt : Counters) (pl : Vector Byte 14) : (longReading cnt pl).long3 = packWord pl[12] pl[13] 0 0 := rfl

/-! ### `startSessionEffect`, `snapshotEffect` -/

@[simp] theorem startSessionEffect_deadline (a l p : Bool) (b : Block) : (startSessionEffect a l p b).deadline = b.deadline := rfl
@[simp] theorem startSessionEffect_cmdRejected (a l p : Bool) (b : Block) : (startSessionEffect a l p b).cmdRejected = b.cmdRejected := rfl
@[simp] theorem startSessionEffect_sess (a l p : Bool) (b : Block) : (startSessionEffect a l p b).sess = sessionOf a l p b.deadline := rfl
@[simp] theorem startSessionEffect_state (a l p : Bool) (b : Block) : (startSessionEffect a l p b).state = b.state := rfl
@[simp] theorem startSessionEffect_tCall (a l p : Bool) (b : Block) : (startSessionEffect a l p b).tCall = b.tCall := rfl
@[simp] theorem startSessionEffect_recov (a l p : Bool) (b : Block) : (startSessionEffect a l p b).recov = b.recov := rfl
@[simp] theorem startSessionEffect_frame (a l p : Bool) (b : Block) : (startSessionEffect a l p b).frame = b.frame := rfl
@[simp] theorem startSessionEffect_cnt (a l p : Bool) (b : Block) : (startSessionEffect a l p b).cnt = b.cnt := rfl
@[simp] theorem startSessionEffect_snap (a l p : Bool) (b : Block) : (startSessionEffect a l p b).snap = b.snap := rfl
@[simp] theorem startSessionEffect_result (a l p : Bool) (b : Block) : (startSessionEffect a l p b).result = b.result := rfl
@[simp] theorem startSessionEffect_lastAbort (a l p : Bool) (b : Block) : (startSessionEffect a l p b).lastAbort = b.lastAbort := rfl

@[simp] theorem snapshotEffect_deadline (b : Block) : (snapshotEffect b).deadline = b.deadline := rfl
@[simp] theorem snapshotEffect_cmdRejected (b : Block) : (snapshotEffect b).cmdRejected = b.cmdRejected := rfl
@[simp] theorem snapshotEffect_sess (b : Block) : (snapshotEffect b).sess = b.sess := rfl
@[simp] theorem snapshotEffect_state (b : Block) : (snapshotEffect b).state = b.state := rfl
@[simp] theorem snapshotEffect_tCall (b : Block) : (snapshotEffect b).tCall = b.tCall := rfl
@[simp] theorem snapshotEffect_recov (b : Block) : (snapshotEffect b).recov = b.recov := rfl
@[simp] theorem snapshotEffect_frame (b : Block) : (snapshotEffect b).frame = b.frame := rfl
@[simp] theorem snapshotEffect_cnt (b : Block) : (snapshotEffect b).cnt = b.cnt := rfl
@[simp] theorem snapshotEffect_snap (b : Block) : (snapshotEffect b).snap = b.cnt := rfl
@[simp] theorem snapshotEffect_result (b : Block) : (snapshotEffect b).result = b.result := rfl
@[simp] theorem snapshotEffect_lastAbort (b : Block) : (snapshotEffect b).lastAbort = b.lastAbort := rfl

/-! ### `Block.withDeadline`, `Block.withRaw` -/

@[simp] theorem Block.withDeadline_deadline (t : Micros) (d : Word) (b : Block) : (b.withDeadline t d).deadline = b.deadline := rfl
@[simp] theorem Block.withDeadline_cmdRejected (t : Micros) (d : Word) (b : Block) : (b.withDeadline t d).cmdRejected = b.cmdRejected := rfl
@[simp] theorem Block.withDeadline_sess (t : Micros) (d : Word) (b : Block) : (b.withDeadline t d).sess = { b.sess with dlMs := d } := rfl
@[simp] theorem Block.withDeadline_state (t : Micros) (d : Word) (b : Block) : (b.withDeadline t d).state = b.state := rfl
@[simp] theorem Block.withDeadline_tCall (t : Micros) (d : Word) (b : Block) : (b.withDeadline t d).tCall = t := rfl
@[simp] theorem Block.withDeadline_recov (t : Micros) (d : Word) (b : Block) : (b.withDeadline t d).recov = b.recov := rfl
@[simp] theorem Block.withDeadline_frame (t : Micros) (d : Word) (b : Block) : (b.withDeadline t d).frame = b.frame := rfl
@[simp] theorem Block.withDeadline_cnt (t : Micros) (d : Word) (b : Block) : (b.withDeadline t d).cnt = b.cnt := rfl
@[simp] theorem Block.withDeadline_snap (t : Micros) (d : Word) (b : Block) : (b.withDeadline t d).snap = b.snap := rfl
@[simp] theorem Block.withDeadline_result (t : Micros) (d : Word) (b : Block) : (b.withDeadline t d).result = b.result := rfl
@[simp] theorem Block.withDeadline_lastAbort (t : Micros) (d : Word) (b : Block) : (b.withDeadline t d).lastAbort = b.lastAbort := rfl

@[simp] theorem Block.withRaw_deadline (raw : Vector Byte 16) (b : Block) : (b.withRaw raw).deadline = b.deadline := rfl
@[simp] theorem Block.withRaw_cmdRejected (raw : Vector Byte 16) (b : Block) : (b.withRaw raw).cmdRejected = b.cmdRejected := rfl
@[simp] theorem Block.withRaw_sess (raw : Vector Byte 16) (b : Block) : (b.withRaw raw).sess = b.sess := rfl
@[simp] theorem Block.withRaw_state (raw : Vector Byte 16) (b : Block) : (b.withRaw raw).state = b.state := rfl
@[simp] theorem Block.withRaw_tCall (raw : Vector Byte 16) (b : Block) : (b.withRaw raw).tCall = b.tCall := rfl
@[simp] theorem Block.withRaw_recov (raw : Vector Byte 16) (b : Block) : (b.withRaw raw).recov = b.recov := rfl
@[simp] theorem Block.withRaw_frame (raw : Vector Byte 16) (b : Block) : (b.withRaw raw).frame = { b.frame with raw := raw } := rfl
@[simp] theorem Block.withRaw_cnt (raw : Vector Byte 16) (b : Block) : (b.withRaw raw).cnt = b.cnt := rfl
@[simp] theorem Block.withRaw_snap (raw : Vector Byte 16) (b : Block) : (b.withRaw raw).snap = b.snap := rfl
@[simp] theorem Block.withRaw_result (raw : Vector Byte 16) (b : Block) : (b.withRaw raw).result = b.result := rfl
@[simp] theorem Block.withRaw_lastAbort (raw : Vector Byte 16) (b : Block) : (b.withRaw raw).lastAbort = b.lastAbort := rfl

/-! ### `State.respond`, `State.withGhost`, `State.withCommand` -/

@[simp] theorem State.respond_blk (r : BusResponse) (s : State) : (s.respond r).blk = s.blk := rfl
@[simp] theorem State.respond_rst (r : BusResponse) (s : State) : (s.respond r).rst = s.rst := rfl
@[simp] theorem State.respond_now (r : BusResponse) (s : State) : (s.respond r).now = s.now := rfl
@[simp] theorem State.respond_response (r : BusResponse) (s : State) : (s.respond r).response = some r := rfl
@[simp] theorem State.respond_inputs (r : BusResponse) (s : State) : (s.respond r).inputs = s.inputs := rfl
@[simp] theorem State.respond_draws (r : BusResponse) (s : State) : (s.respond r).draws = s.draws := rfl

@[simp] theorem State.withGhost_blk (k : Option AttemptOutcome) (s : State) : (s.withGhost k).blk = { s.blk with lastAbort := k } := rfl
@[simp] theorem State.withGhost_rst (k : Option AttemptOutcome) (s : State) : (s.withGhost k).rst = s.rst := rfl
@[simp] theorem State.withGhost_now (k : Option AttemptOutcome) (s : State) : (s.withGhost k).now = s.now := rfl
@[simp] theorem State.withGhost_response (k : Option AttemptOutcome) (s : State) : (s.withGhost k).response = s.response := rfl
@[simp] theorem State.withGhost_inputs (k : Option AttemptOutcome) (s : State) : (s.withGhost k).inputs = s.inputs := rfl
@[simp] theorem State.withGhost_draws (k : Option AttemptOutcome) (s : State) : (s.withGhost k).draws = s.draws := rfl

@[simp] theorem State.withCommand_blk (s : State) (w : Word) : (s.withCommand w).blk = s.blk := rfl
@[simp] theorem State.withCommand_rst (s : State) (w : Word) : (s.withCommand w).rst = false := rfl
@[simp] theorem State.withCommand_now (s : State) (w : Word) : (s.withCommand w).now = s.now := rfl
@[simp] theorem State.withCommand_response (s : State) (w : Word) : (s.withCommand w).response = s.response := rfl
@[simp] theorem State.withCommand_inputs (s : State) (w : Word) : (s.withCommand w).inputs = .bus (commandRequest w) :: s.inputs := rfl
@[simp] theorem State.withCommand_draws (s : State) (w : Word) : (s.withCommand w).draws = s.draws := rfl

/-! ### `State.consume`, `State.held`: what they leave -/

@[simp] theorem State.consume_blk (s : State) : s.consume.blk = s.blk := by unfold State.consume; split <;> rfl
@[simp] theorem State.consume_rst (s : State) : s.consume.rst = s.rst := by unfold State.consume; split <;> rfl
@[simp] theorem State.consume_now (s : State) : s.consume.now = s.now := by unfold State.consume; split <;> rfl
@[simp] theorem State.consume_response (s : State) : s.consume.response = s.response := by
  unfold State.consume; split <;> rfl

@[simp] theorem State.held_rst (s : State) : s.held.rst = s.rst := by unfold State.held; split <;> rfl
@[simp] theorem State.held_now (s : State) : s.held.now = s.now := by unfold State.held; split <;> rfl
@[simp] theorem State.held_response (s : State) : s.held.response = s.response := by
  unfold State.held; split <;> rfl
@[simp] theorem State.held_inputs (s : State) : s.held.inputs = s.inputs := by unfold State.held; split <;> rfl
@[simp] theorem State.held_draws (s : State) : s.held.draws = s.draws := by unfold State.held; split <;> rfl

/-- Outside reset, holding changes nothing. -/
theorem State.held_of_not_rst {s : State} (h : s.rst = false) : s.held = s := by simp [State.held, h]

/-- In reset, the block is the reset block. -/
theorem State.held_blk_of_rst {s : State} (h : s.rst = true) : s.held.blk = Block.reset := by simp [State.held, h]

/-- The next event is the head of the listed events. -/
theorem State.nextEvent_cons {s : State} {e : Event} {es : List Event} (h : s.inputs = e :: es) :
    s.nextEvent = e := by simp [State.nextEvent, h]

/-- Using up a listed event leaves the rest. -/
theorem State.consume_cons {s : State} {e : Event} {es : List Event} (h : s.inputs = e :: es) :
    s.consume = { s with inputs := es } := by simp [State.consume, h]

/-- Neither the next event nor what is left of the inputs depends on the block. -/
theorem State.nextEvent_withBlk (s : State) (b : Block) : ({ s with blk := b } : State).nextEvent = s.nextEvent := rfl

/-- See `State.nextEvent_withBlk`. -/
theorem State.consume_withBlk (s : State) (b : Block) :
    ({ s with blk := b } : State).consume = { s.consume with blk := b } := by
  unfold State.consume; split <;> simp_all

end Sys2Proof.Machine
end

