-- ==== Sys2Proof/Laws/Bits.lean ====
section
/-! SUPPORT. The bit layouts of the command word, of the result registers and of the checksum, said once each. -/

namespace Sys2Proof

/-- A word is its four bytes put together again. -/
theorem wordOfBytes_bytes (w : Word) :
    wordOfBytes (w.extractLsb' 0 8) (w.extractLsb' 8 8) (w.extractLsb' 16 8) (w.extractLsb' 24 8) = w := by
  unfold wordOfBytes
  rw [BitVec.extractLsb'_append_extractLsb'_eq_extractLsb' (by rfl),
    BitVec.extractLsb'_append_extractLsb'_eq_extractLsb' (by rfl),
    BitVec.extractLsb'_append_extractLsb'_eq_extractLsb' (by rfl)]
  simp

/-- What the decoder reads from the bytes of a word, with bytes after them. -/
theorem decodeBytes_bytesOfWord (w : Word) (rest : List Byte) :
    decodeBytes (bytesOfWord w ++ rest) = .ok (decode w, rest) := by
  simp only [bytesOfWord, List.cons_append, List.nil_append, decodeBytes, wordOfBytes_bytes]

namespace Machine

/-! ### The window -/

/-- The offset of a register names that register. -/
@[simp] theorem regAt_offset (r : Reg) : regAt r.offset = r := by cases r <;> decide

/-- An access by register name is legal: `rd` and `wr` are 4 bytes wide and aligned. -/
@[simp] theorem legalAccess_rd (r : Reg) : legalAccess (rd r) = true := by cases r <;> decide

@[simp] theorem legalAccess_wr (r : Reg) (v : Word) : legalAccess (wr r v) = true := legalAccess_rd r

/-- A legal access has one of the sixteen offsets. -/
theorem addr_of_legalAccess {r : BusRequest} (h : legalAccess r = true) : r.addr = (regAt r.addr).offset := by
  obtain ⟨we, addr, size, wdata⟩ := r
  simp only [legalAccess, Bool.and_eq_true, beq_iff_eq] at h
  have key : ∀ a : BitVec 6, a.extractLsb' 0 2 = 0 → a = (regAt a).offset := by decide
  exact key addr h.2

/-- A read changes neither the block nor the other ports. -/
@[simp] theorem busRead_blk (r : BusRequest) (s : State) : (busRead r s).blk = s.blk := by
  unfold busRead; split <;> rfl

@[simp] theorem busRead_rst (r : BusRequest) (s : State) : (busRead r s).rst = s.rst := by
  unfold busRead; split <;> rfl

@[simp] theorem busRead_now (r : BusRequest) (s : State) : (busRead r s).now = s.now := by
  unfold busRead; split <;> rfl

@[simp] theorem busRead_inputs (r : BusRequest) (s : State) : (busRead r s).inputs = s.inputs := by
  unfold busRead; split <;> rfl

/-! ### The result registers of a short reading -/

/-- RES_SHORT0.CHANNEL holds the channel. -/
theorem channelField_sdWord0 (raw : Vector Byte 16) : channelField (sdWord0 raw) = sdChannel raw := by
  unfold channelField sdWord0
  apply BitVec.eq_of_getLsbD_eq
  intro i hi
  rw [BitVec.getLsbD_extractLsb', BitVec.getLsbD_append]
  simp [hi]

/-- RES_SHORT1.HUMIDITY holds the humidity. -/
theorem humidityField_sdWord1 (raw : Vector Byte 16) : humidityField (sdWord1 raw) = sdHumidity raw := by
  unfold humidityField sdWord1
  apply BitVec.eq_of_getLsbD_eq
  intro i hi
  rw [BitVec.getLsbD_extractLsb', BitVec.getLsbD_append, BitVec.getLsbD_append]
  simp [hi, show 16 + i - 16 = i by omega]

/-- The channel is the 3-bit field plus 1, without a wrap (R192). -/
theorem sdChannel_toNat (raw : Vector Byte 16) : (sdChannel raw).toNat = (raw[3].extractLsb' 4 3).toNat + 1 := by
  have h := (raw[3].extractLsb' 4 3).isLt
  unfold sdChannel
  rw [BitVec.toNat_add, BitVec.toNat_setWidth]
  simp
  omega

/-! ### The result registers of a long reading -/

/-- A packed word as a number, the first byte least significant. -/
theorem packWord_toNat (a b c d : Byte) :
    (packWord a b c d).toNat = a.toNat + 256 * b.toNat + 65536 * c.toNat + 16777216 * d.toNat := by
  unfold packWord
  rw [BitVec.toNat_append, BitVec.toNat_append, BitVec.toNat_append]
  simp only [← Nat.shiftLeft_add_eq_or_of_lt a.isLt, ← Nat.shiftLeft_add_eq_or_of_lt b.isLt,
    ← Nat.shiftLeft_add_eq_or_of_lt c.isLt]
  simp only [Nat.shiftLeft_eq]
  omega

/-- Bit `n` of a packed word is bit `n % 8` of its byte `n / 8`. -/
theorem packWord_getLsbD (a b c d : Byte) (n : Nat) (hn : n < 32) :
    (packWord a b c d).getLsbD n = ([a, b, c, d].getD (n / 8) 0).getLsbD (n % 8) := by
  unfold packWord
  rw [BitVec.getLsbD_append, BitVec.getLsbD_append, BitVec.getLsbD_append]
  obtain ⟨q, r, hr, rfl⟩ : ∃ q r, r < 8 ∧ n = 8 * q + r := ⟨n / 8, n % 8, by omega, by omega⟩
  have hq : q < 4 := by omega
  rw [show (8 * q + r) / 8 = q by omega, show (8 * q + r) % 8 = r by omega]
  interval_cases q
  · simp [hr]
  · simp [hr, show ¬8 + r < 8 by omega]
  · simp [show ¬16 + r < 8 by omega, show ¬16 + r - 8 < 8 by omega, show 16 + r - 8 - 8 = r by omega, hr]
  · simp [show ¬24 + r < 8 by omega, show ¬24 + r - 8 < 8 by omega, show ¬24 + r - 8 - 8 < 8 by omega,
      show 24 + r - 8 - 8 - 8 = r by omega]

/-- A consumer finds each bit of the checked payload in RES_LONG0 to RES_LONG3 (R227). -/
theorem publishedBit_ldAccept (pl : Vector Byte 14) (b : Block) (n : Fin 104) :
    publishedBit (ldAccept pl b) n = payloadBit pl n := by
  obtain ⟨n, hn⟩ := n
  unfold publishedBit payloadBit
  have hword : ∀ q : Fin 4, readReg (longReg q) (ldAccept pl b) =
      packWord (pl.toList.getD (4 * q.val) 0) (pl.toList.getD (4 * q.val + 1) 0) (pl.toList.getD (4 * q.val + 2) 0)
        (pl.toList.getD (4 * q.val + 3) 0) := by
    intro q
    match q with
    | 0 | 1 | 2 | 3 => simp [longReg, readReg, ldAccept, List.getD_eq_getElem?_getD]
  rw [hword, packWord_getLsbD _ _ _ _ _ (by omega)]
  simp only
  rw [show n % 32 % 8 = n % 8 by omega]
  congr 1
  obtain ⟨k, hk⟩ : ∃ k, n % 32 / 8 = k := ⟨_, rfl⟩
  have h4 : n / 8 = 4 * (n / 32) + k := by omega
  have : k < 4 := by omega
  rw [hk, h4]
  interval_cases k <;> rfl

/-! ### The checksum -/

/-- The mask after some data bits does not depend on them, nor on the sum. -/
theorem chkBits_mask (bits : List Bool) (m a : Byte) : (chkBits bits (m, a)).1 = maskStep^[bits.length] m := by
  induction bits generalizing m a with
  | nil => rfl
  | cons bit rest ih =>
    show (chkBits rest (chkBit bit (m, a))).1 = _
    rw [show chkBit bit (m, a) = (maskStep m, (chkBit bit (m, a)).2) from rfl, ih, List.length_cons,
      Function.iterate_succ_apply]

/-- The accumulator seed enters the sum once, by exclusive or (R198: `sum = P_CHK_ACC_SEED ⊕ F(d, P_CHK_MASK_SEED)`). -/
theorem chkBits_acc (bits : List Bool) (m a : Byte) : (chkBits bits (m, a)).2 = a ^^^ (chkBits bits (m, 0)).2 := by
  induction bits generalizing m a with
  | nil => show a = a ^^^ 0; simp
  | cons bit rest ih =>
    show (chkBits rest (chkBit bit (m, a))).2 = a ^^^ (chkBits rest (chkBit bit (m, 0))).2
    cases bit
    · exact ih (maskStep m) a
    · show (chkBits rest (maskStep m, a ^^^ maskStep m)).2 = a ^^^ (chkBits rest (maskStep m, 0 ^^^ maskStep m)).2
      rw [ih (maskStep m) (a ^^^ maskStep m), ih (maskStep m) (0 ^^^ maskStep m)]
      simp [BitVec.xor_assoc]

/-- As `chkBits_acc`, for the checksum of a list of bytes. -/
theorem checksumWith_acc (m a : Byte) (data : List Byte) : checksumWith m a data = a ^^^ checksumWith m 0 data :=
  chkBits_acc _ _ _

end Machine

end Sys2Proof
end

