-- ==== Sys2Proof/Laws/Config.lean ====
section
/-! SUPPORT. What the parameters' types say of them (00_scope.md R7). -/

namespace Sys2Proof

/-- The chosen byte is not the short signature, whatever the choice. -/
theorem Config.byteOtherThanShortSig_ne (n : Fin 255) : Config.byteOtherThanShortSig n ≠ Config.shortSig := by
  have hn := n.isLt
  intro h
  have h' := congrArg BitVec.toNat h
  unfold Config.byteOtherThanShortSig Config.shortSig at h'
  split at h' <;> simp at h' <;> omega

/-- Every byte but the short signature can be chosen: the model excludes no value of `P_LONG_SIG`. -/
theorem Config.byteOtherThanShortSig_surjective (v : Byte) (h : v ≠ Config.shortSig) :
    ∃ n, Config.byteOtherThanShortSig n = v := by
  have hv := v.isLt
  have hne : v.toNat ≠ 69 := fun h' => h (by apply BitVec.eq_of_toNat_eq; simpa [Config.shortSig] using h')
  by_cases hlt : v.toNat < 69
  · refine ⟨⟨v.toNat, by omega⟩, ?_⟩
    apply BitVec.eq_of_toNat_eq
    simp [Config.byteOtherThanShortSig, hlt]
  · refine ⟨⟨v.toNat - 1, by omega⟩, ?_⟩
    apply BitVec.eq_of_toNat_eq
    have : ¬(v.toNat - 1 < 69) := by omega
    simp only [Config.byteOtherThanShortSig, this, if_false, BitVec.toNat_ofNat]
    omega

/-- The threshold is in 1..255. -/
theorem Config.params_headerThreshold_toNat :
    Config.params.headerThreshold.toNat = Config.headerThresholdLessOne.val + 1 := by
  have := Config.headerThresholdLessOne.isLt
  simp only [Config.params, BitVec.toNat_ofNat]
  omega

/-- The threshold is not 0. -/
theorem Config.params_headerThreshold_ne_zero : Config.params.headerThreshold ≠ 0 := by
  intro h
  have := Config.params_headerThreshold_toNat
  rw [h] at this
  simp at this

/-- The build's parameters are what R7 asks. -/
theorem Config.params_wf : Config.params.wf = true := by
  simp only [Params.wf, Bool.and_eq_true, bne_iff_ne]
  exact ⟨Config.params_headerThreshold_ne_zero, Config.byteOtherThanShortSig_ne _⟩

/-- Well-formed parameters have a positive threshold. -/
theorem Params.threshold_pos {p : Params} (h : p.wf = true) : 0 < p.headerThreshold.toNat := by
  simp only [Params.wf, Bool.and_eq_true, bne_iff_ne] at h
  rcases Nat.eq_zero_or_pos p.headerThreshold.toNat with h0 | h0
  · exact absurd (BitVec.eq_of_toNat_eq (by simpa using h0)) h.1
  · exact h0

/-- The build's long layout is what R227 settles. -/
theorem Config.longLayout_wf : longLayoutWf Config.longLayout = true := by
  unfold Config.longLayout
  split
  · assumption
  · decide

/-- The model excludes no layout that is what R227 settles. -/
theorem Config.longLayout_of_wf (h : longLayoutWf Config.longLayoutChoice = true) :
    Config.longLayout = Config.longLayoutChoice := if_pos h

end Sys2Proof
end

