-- ==== Sys2Proof/Laws/Moves.lean ====
section
/-! SUPPORT. Said once: everything that one bit, one block step, one command and one step of the machine can do. -/

namespace Sys2Proof.Machine

/-! ### The frame accumulator -/

/-- The bytes of a target are at most the capacity. -/
theorem Target.bytes_le (t : Target) : t.bytes ≤ 16 := by cases t <;> decide

/-- A completed byte appended: RawFrame after FA.BYTE and FA.FAMILY. -/
def RawFrame.complete (p : Params) (accLong : Bool) (byte : Byte) (f : RawFrame) : RawFrame :=
  (f.append byte).decideFamily p.longSig accLong

/-- FA.FAMILY writes the family flag and the target alone. -/
theorem RawFrame.decideFamily_frame (sig : Byte) (accLong : Bool) (f : RawFrame) :
    (f.decideFamily sig accLong).raw = f.raw ∧ (f.decideFamily sig accLong).filled = f.filled ∧
      (f.decideFamily sig accLong).acc = f.acc ∧ (f.decideFamily sig accLong).nb = f.nb := by
  unfold RawFrame.decideFamily; split <;> simp

/-- What FA.BYTE and FA.FAMILY write but for the family. -/
@[simp] theorem RawFrame.complete_raw (p : Params) (a : Bool) (byte : Byte) (f : RawFrame) :
    (f.complete p a byte).raw = f.raw.setIfInBounds f.filled.toNat byte :=
  (RawFrame.decideFamily_frame _ _ _).1

@[simp] theorem RawFrame.complete_filled (p : Params) (a : Bool) (byte : Byte) (f : RawFrame) :
    (f.complete p a byte).filled = f.filled + 1 := (RawFrame.decideFamily_frame _ _ _).2.1

@[simp] theorem RawFrame.complete_acc (p : Params) (a : Bool) (byte : Byte) (f : RawFrame) :
    (f.complete p a byte).acc = 0 := (RawFrame.decideFamily_frame _ _ _).2.2.1

@[simp] theorem RawFrame.complete_nb (p : Params) (a : Bool) (byte : Byte) (f : RawFrame) :
    (f.complete p a byte).nb = 0 := (RawFrame.decideFamily_frame _ _ _).2.2.2

/-- The family is decided exactly by the second byte, or was before. -/
theorem RawFrame.complete_family (p : Params) (a : Bool) (byte : Byte) (f : RawFrame) :
    (f.filled + 1 = 2 ∧ f.famDecided = false ∧ (f.complete p a byte).famDecided = true ∧
      (f.complete p a byte).target =
        (if a = true ∧ (f.raw.setIfInBounds f.filled.toNat byte)[1] = p.longSig then .long else f.target)) ∨
    (¬(f.filled + 1 = 2 ∧ f.famDecided = false) ∧ (f.complete p a byte).famDecided = f.famDecided ∧
      (f.complete p a byte).target = f.target) := by
  unfold RawFrame.complete RawFrame.decideFamily
  by_cases h : f.filled + 1 = 2 ∧ f.famDecided = false
  · have h' : (f.append byte).filled = 2 ∧ (f.append byte).famDecided = false := h
    rw [if_pos h']
    exact .inl ⟨h.1, h.2, rfl, rfl⟩
  · have h' : ¬((f.append byte).filled = 2 ∧ (f.append byte).famDecided = false) := h
    rw [if_neg h']
    exact .inr ⟨h, rfl, rfl⟩

/-- The controller state after FA.COMPLETE. -/
theorem Block.completeFrame_eq (b : Block) :
    b.completeFrame =
      { b with state := if b.frame.filled.toNat = b.frame.target.bytes then .decoding else b.state } := by
  unfold Block.completeFrame; split <;> rfl

/-- Room for a bit, as a comparison. -/
@[simp] theorem RawFrame.hasRoom_iff (f : RawFrame) :
    f.hasRoom = true ↔ f.filled.toNat < f.target.bytes := by simp only [RawFrame.hasRoom, decide_eq_true_eq]

/-- The short family's check, clause by clause. -/
@[simp] theorem shortFramePasses_iff (p : Params) (raw : Vector Byte 16) :
    shortFramePasses p raw = true ↔
      raw[1] = Config.shortSig ∧ checksumShort p.chkMaskSeed (checkedBytes raw) = raw[6] ∧
        sdHumidity raw ≤ Config.humMax := by
  simp only [shortFramePasses, Bool.and_eq_true, beq_iff_eq, decide_eq_true_eq, and_assoc]

/-- The long family's check as an equation. -/
@[simp] theorem longFramePasses_iff (p : Params) (pl : Vector Byte 14) :
    longFramePasses p pl = true ↔ payloadCrc p.crcTable pl = pl[13] := by
  simp only [longFramePasses, beq_iff_eq]

/-- What a target that R172 has left so has, a target of 16 and a target of 7. -/
theorem Block.targetEarned_iff (p : Params) (b : Block) :
    b.targetEarned p = true ↔
      (b.frame.target = .long → b.frame.famDecided = true ∧ 2 ≤ b.frame.filled.toNat ∧ b.frame.raw[1] = p.longSig ∧
        (b.inAttempt = true → b.sess.accLong = true)) ∧
      (b.inAttempt = true → b.sess.accLong = true → b.frame.famDecided = true ∨ 2 ≤ b.frame.filled.toNat →
        b.frame.raw[1] = p.longSig → b.frame.target = .long) := by
  unfold Block.targetEarned
  cases b.frame.target <;> cases b.inAttempt <;> cases b.sess.accLong <;> simp [and_assoc, imp_iff_not_or]

/-- What a reading in the registers has: DONE, its frame in RawFrame, the frame's check, and the accept's registers. -/
theorem Block.readingEarned_iff (p : Params) (b : Block) :
    b.readingEarned p = true ↔
      (b.result.kind = .thermoHygro →
        b.state = .done ∧ b.frame.target = .short ∧ shortFramePasses p b.frame.raw = true ∧
          b.result = shortReading b.cnt b.frame.raw) ∧
      (b.result.kind = .weatherStation →
        b.state = .done ∧ b.frame.target = .long ∧ longFramePasses p (payload b.frame.raw) = true ∧
          b.result = longReading b.cnt (payload b.frame.raw)) := by
  unfold Block.readingEarned
  cases b.result.kind <;> simp [and_assoc]

/-- The short family's accept earns its reading. -/
theorem Block.readingEarned_sdAccept {p : Params} {b : Block} (ht : b.frame.target = .short)
    (h : shortFramePasses p b.frame.raw = true) : (sdAccept b).readingEarned p = true :=
  (Block.readingEarned_iff _ _).2 ⟨fun _ => ⟨rfl, ht, h, rfl⟩, fun hk => nomatch hk⟩

/-- The long family's accept earns its reading. -/
theorem Block.readingEarned_ldAccept {p : Params} {b : Block} (ht : b.frame.target = .long)
    (h : longFramePasses p (payload b.frame.raw) = true) :
    (ldAccept (payload b.frame.raw) b).readingEarned p = true :=
  (Block.readingEarned_iff _ _).2 ⟨fun hk => (nomatch hk), fun _ => ⟨rfl, ht, h, rfl⟩⟩

/-- What a state that does not fault has: the invariants of R69 that one state can show, and I3. -/
theorem Block.lawful_iff (p : Params) (b : Block) :
    b.lawful p = true ↔
      b.frame.filled.toNat ≤ b.frame.target.bytes ∧
      (b.state = .receiving → b.frame.filled.toNat < b.frame.target.bytes) ∧
      b.targetEarned p = true ∧ b.result.kind ≠ .decodeError ∧ b.result.confined = true ∧ b.result.inRange = true ∧
      b.readingEarned p = true := by
  have hroom : (b.state != .receiving || b.frame.hasRoom) = true ↔
      (b.state = .receiving → b.frame.filled.toNat < b.frame.target.bytes) := by
    cases b.state <;> simp
  unfold Block.lawful
  simp only [Bool.and_eq_true, hroom]
  simp [and_assoc]

/-! ### The moves of the block -/

/-- Everything a step of the block can do: `BlockMove p rx now b t` holds for the states `t` that a step from `b` with the
draw `rx` at time `now` can give, with the guards of the rule that gives it. -/
inductive BlockMove (p : Params) (rx : Bool) (now : Micros) (b : Block) : Block → Prop where
  /-- No step is enabled, or BR.POLL did not find its level. -/
  | stay : BlockMove p rx now b b
  | timeout (hs : b.state = .searching) (hd : deadlineElapsed now b = true) : BlockMove p rx now b (b.finish .timeout)
  | attempt (hs : b.state = .searching) (hd : deadlineElapsed now b = false) : BlockMove p rx now b b.attemptStart
  | poll (hs : b.state = .receiving) (hp : b.recov.ph = .waitLevel) (hx : rx = b.recov.expected) :
      BlockMove p rx now b { b with recov := { b.recov with tRef := now, ph := .waitShort } }
  | stable (hs : b.state = .receiving) (hp : b.recov.ph = .waitShort)
      (hd : delayElapsed p.shortDelayUs b.recov.tRef now = true) (hx : rx = b.recov.expected) :
      BlockMove p rx now b { b with recov := { b.recov with tRef := now, ph := .waitLong } }
  | violation (hs : b.state = .receiving) (hp : b.recov.ph = .waitShort)
      (hd : delayElapsed p.shortDelayUs b.recov.tRef now = true) (hx : rx ≠ b.recov.expected) :
      BlockMove p rx now b
        (({ b with recov := { b.recov with err := true } } : Block).abort .waveformViolation)
  | absorbedOne (hs : b.state = .receiving) (hp : b.recov.ph = .waitLong)
      (hd : delayElapsed p.longDelayUs b.recov.tRef now = true) (hx : brBit rx b = true) (h0 : b.recov.saw0 = false)
      (hr : ¬b.recov.run < p.headerThreshold) : BlockMove p rx now b (brTurn rx b)
  | countedOne (hs : b.state = .receiving) (hp : b.recov.ph = .waitLong)
      (hd : delayElapsed p.longDelayUs b.recov.tRef now = true) (hx : brBit rx b = true) (h0 : b.recov.saw0 = false)
      (hr : b.recov.run < p.headerThreshold) (hn : b.recov.run + 1 ≠ p.headerThreshold) :
      BlockMove p rx now b { b with
        recov := { (brTurn rx b).recov with run := b.recov.run + 1 } }
  | headerFound (hs : b.state = .receiving) (hp : b.recov.ph = .waitLong)
      (hd : delayElapsed p.longDelayUs b.recov.tRef now = true) (hx : brBit rx b = true) (h0 : b.recov.saw0 = false)
      (hr : b.recov.run < p.headerThreshold) (hn : b.recov.run + 1 = p.headerThreshold) :
      BlockMove p rx now b { b with
        recov := { (brTurn rx b).recov with run := b.recov.run + 1, inPre := false }
        cnt := { b.cnt with headers := b.cnt.headers + 1 } }
  | earlyZero (hs : b.state = .receiving) (hp : b.recov.ph = .waitLong)
      (hd : delayElapsed p.longDelayUs b.recov.tRef now = true) (hx : brBit rx b = false) (h0 : b.recov.saw0 = false)
      (hr : b.recov.run < p.headerThreshold) :
      BlockMove p rx now b ((brTurn rx b).abort .synchronizationFailure)
  | sync (hs : b.state = .receiving) (hp : b.recov.ph = .waitLong)
      (hd : delayElapsed p.longDelayUs b.recov.tRef now = true) (hx : brBit rx b = false) (h0 : b.recov.saw0 = false)
      (hr : b.recov.run = p.headerThreshold) : BlockMove p rx now b (hsSync (brTurn rx b))
  | shift (hs : b.state = .receiving) (hp : b.recov.ph = .waitLong)
      (hd : delayElapsed p.longDelayUs b.recov.tRef now = true) (h0 : b.recov.saw0 = true)
      (hb : b.frame.nb ≠ 7) (hf : b.frame.filled.toNat < b.frame.target.bytes) :
      BlockMove p rx now b { brTurn rx b with
        frame := { b.frame with acc := shiftIn b.frame.acc (brBit rx b), nb := b.frame.nb + 1 } }
  | byte (hs : b.state = .receiving) (hp : b.recov.ph = .waitLong)
      (hd : delayElapsed p.longDelayUs b.recov.tRef now = true) (h0 : b.recov.saw0 = true)
      (hb : b.frame.nb = 7) (hf : b.frame.filled.toNat < b.frame.target.bytes) :
      BlockMove p rx now b { brTurn rx b with
        frame := b.frame.complete p b.sess.accLong (shiftIn b.frame.acc (brBit rx b))
        state :=
          if (b.frame.filled + 1).toNat = (b.frame.complete p b.sess.accLong (shiftIn b.frame.acc (brBit rx b))).target.bytes
          then .decoding else .receiving }
  | reject (k : AttemptOutcome) (hs : b.state = .decoding) : BlockMove p rx now b (b.abort k)
  | acceptShort (hs : b.state = .decoding) (ht : b.frame.target = .short) (ha : b.sess.accShort = true)
      (h1 : b.frame.raw[1] = Config.shortSig)
      (hc : checksumShort p.chkMaskSeed (checkedBytes b.frame.raw) = b.frame.raw[6])
      (hh : sdHumidity b.frame.raw ≤ Config.humMax) : BlockMove p rx now b (sdAccept b)
  | acceptLong (hs : b.state = .decoding) (ht : b.frame.target = .long)
      (hc : payloadCrc p.crcTable (payload b.frame.raw) = (payload b.frame.raw)[13]) :
      BlockMove p rx now b (ldAccept (payload b.frame.raw) b)

/-- What the short decoder answers: an abort, or the reading with all its checks passed. -/
theorem shortDecode_cases (p : Params) (b : Block) :
    (∃ k, shortDecode p b = b.abort k) ∨
    (b.sess.accShort = true ∧ b.frame.raw[1] = Config.shortSig ∧
      checksumShort p.chkMaskSeed (checkedBytes b.frame.raw) = b.frame.raw[6] ∧
      sdHumidity b.frame.raw ≤ Config.humMax ∧ shortDecode p b = sdAccept b) := by
  unfold shortDecode
  split
  · exact .inl ⟨_, rfl⟩
  · rename_i h1
    split
    · exact .inl ⟨_, rfl⟩
    · rename_i h2
      split
      · exact .inl ⟨_, rfl⟩
      · rename_i h3
        simp only [not_or, Bool.not_eq_false, Classical.not_not] at h1
        exact .inr ⟨h1.1, h1.2, Classical.not_not.mp h2, by simpa using h3, rfl⟩

/-- What the long decoder answers: an abort, or the payload with its CRC verified. -/
theorem longDecode_cases (p : Params) (b : Block) :
    longDecode p b = b.abort .crcMismatch ∨
    (payloadCrc p.crcTable (payload b.frame.raw) = (payload b.frame.raw)[13] ∧
      longDecode p b = ldAccept (payload b.frame.raw) b) := by
  unfold longDecode
  simp only
  split
  · exact .inl rfl
  · rename_i h
    exact .inr ⟨Classical.not_not.mp h, rfl⟩

/-- What BR.LONG can do. -/
theorem brLong_move {p : Params} {rx : Bool} {now : Micros} {b t : Block} (hs : b.state = .receiving)
    (hp : b.recov.ph = .waitLong) (hd : delayElapsed p.longDelayUs b.recov.tRef now = true)
    (h : brLong p rx b = .ok t) : BlockMove p rx now b t := by
  unfold brLong at h
  unfold headerSync at h
  split at h
  · rename_i h0
    have h0' : b.recov.saw0 = true := h0
    unfold hsData accumulate at h
    split at h
    · rename_i hf
      have hf' : b.frame.filled.toNat < b.frame.target.bytes := of_decide_eq_true hf
      split at h
      · rename_i hb
        cases h
        have := BlockMove.byte (p := p) (rx := rx) (now := now) hs hp hd h0' hb hf'
        simpa [completeByte, Block.completeFrame_eq, RawFrame.complete, hs, (RawFrame.decideFamily_frame _ _ _).2.1,
          RawFrame.append] using this
      · rename_i hb
        cases h
        exact .shift hs hp hd h0' hb hf'
    · cases h
  · rename_i h0
    have h0' : b.recov.saw0 = false := by simpa using h0
    split at h
    · rename_i hx
      cases h
      unfold hsOne
      split
      · rename_i hr
        split
        · rename_i hn
          exact .headerFound hs hp hd hx h0' hr hn
        · rename_i hn
          exact .countedOne hs hp hd hx h0' hr hn
      · rename_i hr
        exact .absorbedOne hs hp hd hx h0' hr
    · rename_i hx
      have hx' : brBit rx b = false := by simpa using hx
      split at h
      · rename_i hr
        cases h
        exact .earlyZero hs hp hd hx' h0' hr
      · split at h
        · rename_i hr
          cases h
          exact .sync hs hp hd hx' h0' hr
        · cases h

/-- Everything a step of the block can do. -/
theorem blockStep_move {p : Params} {rx : Bool} {now : Micros} {b t : Block} (h : blockStep p rx now b = .ok t) :
    BlockMove p rx now b t := by
  unfold blockStep enabledStep at h
  cases hs : b.state <;> simp only [hs] at h
  case idle => cases h; exact .stay
  case done => cases h; exact .stay
  case searching =>
    unfold csSearch at h
    split at h
    · rename_i hd
      cases h
      exact .timeout hs hd
    · rename_i hd
      cases h
      exact .attempt hs (by simpa using hd)
  case decoding =>
    unfold csDecode at h
    cases ht : b.frame.target <;> simp only [ht] at h
    · rcases shortDecode_cases p b with ⟨k, hk⟩ | ⟨ha, h1, hc, hh, hk⟩
      · rw [hk] at h; cases h; exact .reject k hs
      · rw [hk] at h; cases h; exact .acceptShort hs ht ha h1 hc hh
    · rcases longDecode_cases p b with hk | ⟨hc, hk⟩
      · rw [hk] at h; cases h; exact .reject _ hs
      · rw [hk] at h; cases h; exact .acceptLong hs ht hc
  case receiving =>
    cases hp : b.recov.ph <;> simp only [hp] at h
    case waitLevel =>
      unfold brPoll at h
      split at h
      · rename_i hx
        cases h
        exact .poll hs hp hx
      · cases h; exact .stay
    case waitShort =>
      cases hd : delayElapsed p.shortDelayUs b.recov.tRef now <;> simp only [hd, Bool.false_eq_true, if_false, if_true] at h
      · cases h; exact .stay
      · unfold brShort at h
        split at h
        · rename_i hx
          cases h
          exact .stable hs hp hd hx
        · rename_i hx
          cases h
          exact .violation hs hp hd hx
    case waitLong =>
      cases hd : delayElapsed p.longDelayUs b.recov.tRef now <;> simp only [hd, Bool.false_eq_true, if_false, if_true] at h
      · cases h; exact .stay
      · exact brLong_move hs hp hd h

/-! ### The commands -/

/-- A command changes the block alone, and answers a next state. -/
theorem cmdWrite_next (i : Instr) (f : Block → Block) (s : State) :
    cmdWrite i f s = .next { s with
      blk := if accepts i s.blk.busy then f (s.blk.setRejected false) else s.blk.setRejected true } := rfl

/-- What an accepted command does to the block at time `now`. -/
def effectOf (now : Micros) : Instr → Block → Block
  | .startSession a l p => startSessionEffect a l p
  | .decodeOnce => decodeOnceEffect now
  | .snapshot => snapshotEffect
  | .reinit => reinitEffect
  | .nop | .reserved5 | .reserved6 | .reserved7 | .reserved8 | .reserved9 | .reservedA | .reservedB | .reservedC
  | .reservedD | .reservedE | .reservedF => id

/-- Every command is one CMD write with its effect. -/
theorem exec_eq_cmdWrite (i : Instr) (s : State) : exec i s = cmdWrite i (effectOf s.now i) s := by cases i <;> rfl

/-- Everything a command can do: it answers a next state in which the block alone has changed, by the effect of an
accepted command or by CMD_REJECTED = 1. -/
theorem exec_next (i : Instr) (s : State) :
    exec i s = .next { s with
      blk := if accepts i s.blk.busy then effectOf s.now i (s.blk.setRejected false) else s.blk.setRejected true } := by
  rw [exec_eq_cmdWrite, cmdWrite_next]

/-- What an accepted DECODE_ONCE does: a misuse, or a new request. -/
theorem decodeOnceEffect_cases (now : Micros) (b : Block) :
    (b.sess.cfgValid = false ∧ decodeOnceEffect now b = b.clearResult.finish (.misuse .noSession)) ∨
    (b.sess.cfgValid = true ∧ b.sess.accShort = false ∧ b.sess.accLong = false ∧
      decodeOnceEffect now b = b.clearResult.finish (.misuse .noFamily)) ∨
    (b.sess.cfgValid = true ∧ (b.sess.accShort = true ∨ b.sess.accLong = true) ∧
      decodeOnceEffect now b = { b.clearResult with tCall := now, state := .searching }) := by
  unfold decodeOnceEffect
  cases hc : b.sess.cfgValid
  · exact .inl ⟨rfl, by simp⟩
  · cases ha : b.sess.accShort <;> cases hl : b.sess.accLong
    · exact .inr (.inl ⟨rfl, rfl, rfl, by simp⟩)
    · exact .inr (.inr ⟨rfl, .inr rfl, by simp⟩)
    · exact .inr (.inr ⟨rfl, .inl rfl, by simp⟩)
    · exact .inr (.inr ⟨rfl, .inl rfl, by simp⟩)

/-! ### The step of the machine -/

/-- Everything that serving one event can do: from `s`, the state outside reset or held in it, with the event used up. -/
inductive EventMove (p : Params) (s : State) : Event → State → Prop where
  | read (r : BusRequest) (hw : r.we = false) : EventMove p s (.bus r) (busRead r s)
  | illegalWrite (r : BusRequest) (hw : r.we = true) (hl : legalAccess r = false) :
      EventMove p s (.bus r) (s.respond (.write true))
  | ignoredWrite (r : BusRequest) (hw : r.we = true) (hl : legalAccess r = true)
      (hi : s.rst = true ∨ (regAt r.addr ≠ .cmd ∧ regAt r.addr ≠ .deadline)) :
      EventMove p s (.bus r) (s.respond (.write false))
  | deadlineWrite (r : BusRequest) (hw : r.we = true) (hl : legalAccess r = true) (hr : s.rst = false)
      (hd : regAt r.addr = .deadline) :
      EventMove p s (.bus r) (({ s with blk := { s.blk with deadline := r.wdata } } : State).respond (.write false))
  | command (r : BusRequest) (hw : r.we = true) (hl : legalAccess r = true) (hr : s.rst = false)
      (hd : regAt r.addr = .cmd) :
      EventMove p s (.bus r) (({ s with
        blk := if accepts (decode r.wdata) s.blk.busy then effectOf s.now (decode r.wdata) (s.blk.setRejected false)
               else s.blk.setRejected true } : State).respond (.write false))
  | block (rx : Bool) (b : Block) (h : BlockMove p rx s.now s.blk b) : EventMove p s (.block rx) { s with blk := b }
  | time (t : Micros) : EventMove p s (.time t) { s with now := timeAfter p t s.now s.blk }
  | rst (level : Bool) : EventMove p s (.rst level) (({ s with rst := level } : State).held)

/-- Everything that serving one event can do. -/
theorem serve_move {p : Params} {e : Event} {s t : State} (h : serve p e s = .next t) : EventMove p s e t := by
  cases e with
  | bus r =>
    unfold serve busAccess at h
    simp only at h
    split at h
    · rename_i hw
      unfold busWrite at h
      split at h
      · rename_i hl
        split at h
        · rename_i hr
          cases h
          exact .ignoredWrite r hw hl (.inl hr)
        · rename_i hr
          have hr' : s.rst = false := by simpa using hr
          cases hreg : regAt r.addr <;> rw [hreg] at h <;> simp only [writeReg, answerWrite] at h
          case cmd =>
            rw [exec_next] at h
            cases h
            exact .command r hw hl hr' hreg
          case deadline => cases h; exact .deadlineWrite r hw hl hr' hreg
          all_goals cases h; exact .ignoredWrite r hw hl (.inr (by simp [hreg]))
      · rename_i hl
        cases h
        exact .illegalWrite r hw (by simpa using hl)
    · rename_i hw
      cases h
      exact .read r (by simpa using hw)
  | block rx =>
    unfold serve at h
    simp only at h
    cases hb : blockStep p rx s.now s.blk with
    | ok b => rw [hb] at h; cases h; exact .block rx b (blockStep_move hb)
    | error f => rw [hb] at h; cases h
  | time u => cases h; exact .time u
  | rst level => cases h; exact .rst level

/-- Everything a step of the machine can do: the state breaks no invariant of R69, and the next event is served on the
state outside reset or held in it. -/
theorem step_move {s t : State} (h : step s = .next t) :
    s.held.blk.lawful Config.params = true ∧ EventMove Config.params s.held.consume s.nextEvent t := by
  unfold step stepWith at h
  split at h
  · rename_i hl
    exact ⟨hl, serve_move h⟩
  · cases h

/-- A step from a state that breaks no invariant of R69 serves the next event. -/
theorem step_of_lawful {s : State} (h : s.held.blk.lawful Config.params = true) :
    step s = serve Config.params s.nextEvent s.held.consume := by
  unfold step stepWith
  rw [if_pos h]

/-- The same, outside reset. -/
theorem step_of_lawful_running {s : State} (hr : s.rst = false) (h : s.blk.lawful Config.params = true) :
    step s = serve Config.params s.nextEvent s.consume := by
  have hh := State.held_of_not_rst hr
  rw [step_of_lawful (by rw [hh]; exact h), hh]

/-- A step from a state that breaks an invariant of R69 faults. -/
theorem step_of_unlawful {s : State} (h : s.held.blk.lawful Config.params = false) : step s = .fault .invariantBroken := by
  unfold step stepWith
  rw [if_neg (by simp [h])]

end Sys2Proof.Machine
end

