-- ==== Sys2Proof/Laws/PerInstr.lean ====
section
/-! SUPPORT. A fact about each command's encoding, one lemma per constructor (30_encoding.md R100, R103). -/

namespace Sys2Proof.Laws

/-- The OP field of the encoded word is the command's opcode, and every ignored bit of it is 0. -/
def OpField.Statement (i : Instr) : Prop :=
  (encode i).extractLsb' 0 4 = i.opcode ∧ encode i &&& 0xFFFFF8F0 = 0 ∧
    ((∀ s l p, i ≠ .startSession s l p) → encode i &&& 0x00000700 = 0)

theorem OpField.nop : OpField.Statement .nop := ⟨by decide, by decide, fun _ => by decide⟩

theorem OpField.startSession (s l p : Bool) : OpField.Statement (.startSession s l p) := by
  refine ⟨?_, ?_, fun h => absurd rfl (h s l p)⟩ <;> revert s l p <;> decide

theorem OpField.decodeOnce : OpField.Statement .decodeOnce := ⟨by decide, by decide, fun _ => by decide⟩

theorem OpField.snapshot : OpField.Statement .snapshot := ⟨by decide, by decide, fun _ => by decide⟩

theorem OpField.reinit : OpField.Statement .reinit := ⟨by decide, by decide, fun _ => by decide⟩

theorem OpField.reserved5 : OpField.Statement .reserved5 := ⟨by decide, by decide, fun _ => by decide⟩

theorem OpField.reserved6 : OpField.Statement .reserved6 := ⟨by decide, by decide, fun _ => by decide⟩

theorem OpField.reserved7 : OpField.Statement .reserved7 := ⟨by decide, by decide, fun _ => by decide⟩

theorem OpField.reserved8 : OpField.Statement .reserved8 := ⟨by decide, by decide, fun _ => by decide⟩

theorem OpField.reserved9 : OpField.Statement .reserved9 := ⟨by decide, by decide, fun _ => by decide⟩

theorem OpField.reservedA : OpField.Statement .reservedA := ⟨by decide, by decide, fun _ => by decide⟩

theorem OpField.reservedB : OpField.Statement .reservedB := ⟨by decide, by decide, fun _ => by decide⟩

theorem OpField.reservedC : OpField.Statement .reservedC := ⟨by decide, by decide, fun _ => by decide⟩

theorem OpField.reservedD : OpField.Statement .reservedD := ⟨by decide, by decide, fun _ => by decide⟩

theorem OpField.reservedE : OpField.Statement .reservedE := ⟨by decide, by decide, fun _ => by decide⟩

theorem OpField.reservedF : OpField.Statement .reservedF := ⟨by decide, by decide, fun _ => by decide⟩

end Sys2Proof.Laws
end

