-- ==== Sys2Proof/Tests/Slice0.lean ====
section
/-! SUPPORT. Tests, each expected value taken from the spec (95_test_vectors.md unless another file is named), and one
witness for each statement that has hypotheses. -/

namespace Sys2Proof.Tests

open Sys2Proof Sys2Proof.Machine

/-! ### Helpers -/

/-- The illustrative parameters of 95_test_vectors.md, with candidate A and the identity table. -/
def paramsA : Params :=
  { shortDelayUs := 250, longDelayUs := 500, headerThreshold := 8, longSig := 0xA1, chkMaskSeed := 0x64,
    crcTable := fun x => x }

/-- The state in an outcome, or the reset state. -/
def stateOf : Host.Outcome State Fault Refusal → State
  | .next s => s
  | .fault _ => State.reset
  | .refused _ => State.reset

/-- STATUS after a command. -/
def statusAfter (i : Instr) (s : State) : Word := readReg .status (stateOf (exec i s)).blk

/-- A machine that holds a block, with one event to come. -/
def holding (b : Block) (e : Event) : State := { State.reset with blk := b, inputs := [e] }

/-- A block in a session that accepts the short family. -/
def shortSession (state : CtlState) : Block :=
  { Block.reset with
    state := state
    sess := { cfgValid := true, accShort := true, accLong := false, pol := false, dlMs := 5 } }

/-- A block in phase `ph`, its delay started at 100 µs. -/
def inPhase (ph : Phase) : Block :=
  { shortSession .receiving with recov := { Recovery.fresh false with ph := ph, tRef := 100 } }

/-- A block whose header synchronizer has counted `run` ones. -/
def afterOnes (run : Byte) : Block :=
  { shortSession .receiving with recov := { Recovery.fresh false with run := run } }

/-- A block that waits for the last bit of byte `filled` of a frame. -/
def beforeLastBit (filled : BitVec 5) : Block :=
  { shortSession .receiving with
    recov := { Recovery.fresh false with run := 8, inPre := false, saw0 := true }
    frame := { RawFrame.empty with filled := filled, acc := 0x22, nb := 7 } }

/-- The sample packet of E1 in RawFrame. -/
def samplePacket : Vector Byte 16 := #v[0xFD, 0x45, 0x4F, 0x04, 0x4B, 0x0B, 0x52, 0, 0, 0, 0, 0, 0, 0, 0, 0]

/-- The raw frame of L3, whose CRC byte is that of table T_A. -/
def longPacket : Vector Byte 16 :=
  #v[0x0F, 0xA1, 0x23, 0x45, 0x67, 0x89, 0xAB, 0xCD, 0xEF, 0x01, 0x12, 0x23, 0x34, 0x45, 0x53, 0x00]

/-- The frame of L3 with the CRC byte 0xD1 of the identity table (L2). -/
def longPacketIdentity : Vector Byte 16 :=
  #v[0x0F, 0xA1, 0x23, 0x45, 0x67, 0x89, 0xAB, 0xCD, 0xEF, 0x01, 0x12, 0x23, 0x34, 0x45, 0x5D, 0x10]

/-- A block in DECODING with a 7-byte frame. -/
def decodingShort (raw : Vector Byte 16) : Block :=
  { shortSession .decoding with frame := { RawFrame.empty with raw := raw, filled := 7, famDecided := true } }

/-- A block in DECODING with a 16-byte frame. -/
def decodingLong (raw : Vector Byte 16) : Block :=
  { shortSession .decoding with
    frame := { RawFrame.empty with raw := raw, filled := 16, target := .long, famDecided := true } }

/-- A block in DONE that shows the reading of E1, the frame of E1 in RawFrame. -/
def showingSample : Block :=
  { decodingShort samplePacket with
    state := .done
    cnt := { headers := 1, short := 1, long := 0 }
    result := { Result.none with kind := .thermoHygro, seq := 1, short0 := 0x044B4F01, short1 := 0x520B02BB } }

/-- A block in DONE after a time-out that had found one header. -/
def timedOut : Block :=
  { shortSession .done with cnt := { headers := 1, short := 0, long := 0 }, result := Result.timeout }

/-- The state or the outcome after one step of the block. -/
def blockAfter (rx : Bool) (now : Micros) (b : Block) : Option Block :=
  match blockStep paramsA rx now b with
  | .ok t => some t
  | .error _ => none

/-! ### Decoding: words written out from 30_encoding.md R100 to R103 -/

/-- `POL = 1`, `L = 0`, `S = 1`, `OP = 0001`, and the ignored bits 1. -/
theorem test_decode_startSession :
    decode 0b111111111111111111111_1_0_1_1111_0001 = .startSession true false true := by decide

theorem test_decode_nop : decode 0b000000000000000000000_0_0_0_0000_0000 = .nop := by decide
theorem test_decode_decodeOnce : decode 0b000000000000000000000_1_1_1_0000_0010 = .decodeOnce := by decide
theorem test_decode_snapshot : decode 0b111111111111111111111_1_1_1_1111_0011 = .snapshot := by decide
theorem test_decode_reinit : decode 0b000000000000000000000_0_0_0_0000_0100 = .reinit := by decide

theorem test_decode_reserved :
    [0x5, 0x6, 0x7, 0x8, 0x9, 0xA, 0xB, 0xC, 0xD, 0xE, 0xF].map (decode ∘ BitVec.ofNat 32) =
      [.reserved5, .reserved6, .reserved7, .reserved8, .reserved9, .reservedA, .reservedB, .reservedC, .reservedD,
        .reservedE, .reservedF] := by decide

/-- PR4's word 0x00000701 as the bytes 01 07 00 00, least significant first (R85). -/
theorem test_decode_bytes :
    decodeBytes [0x01, 0x07, 0x00, 0x00] = .ok (.startSession true true true, []) := by decide

theorem test_decodeTableWord : decodeTableWord 32 0x00000301 = some (.startSession true true false) := by decide

/-- A command word placed after reset is the one that the next step runs. -/
theorem test_withFetchWord_runs :
    (stateOf (step (State.reset.withFetchWord 32 0x00000301))).blk.sess.accLong = true := by rfl

/-! ### WellFormed: an ill-formed term for each check -/

theorem test_wf_params : paramsA.wf = true := by decide
theorem test_wf_refuses_threshold_zero : ({ paramsA with headerThreshold := 0 } : Params).wf = false := by decide
theorem test_wf_refuses_long_signature_of_short :
    ({ paramsA with longSig := 0x45 } : Params).wf = false := by decide

/-- `sampleLayout` with the bits of one field replaced. -/
def relaid (field : LongField) (bits : List (Fin 104)) : LongLayout :=
  { sampleLayout with bits := fun f => if f = field then bits else sampleLayout.bits f }

theorem test_layout_sample : longLayoutWf sampleLayout = true := by decide

/-- The rainfall has 16 bits (44_long_decoder.md R227). -/
theorem test_layout_refuses_width :
    (relaid .rainfall (sentRun 40 15)).widths = false ∧ longLayoutWf (relaid .rainfall (sentRun 40 15)) = false := by
  decide

/-- A field is a set of bits. -/
theorem test_layout_refuses_repeated_bit :
    (relaid .windDirection [32, 32]).sets = false ∧ longLayoutWf (relaid .windDirection [32, 32]) = false := by decide

/-- The UV index comes after the light level. -/
theorem test_layout_refuses_order :
    (relaid .uvIndex (sentRun 72 8)).ordered = false ∧ longLayoutWf (relaid .uvIndex (sentRun 72 8)) = false := by decide

/-- A high bit of the gust speed is among the flags. -/
theorem test_layout_refuses_wind_outside_flags :
    (relaid .gustWind (sentRun 24 8)).flagged = false ∧ longLayoutWf (relaid .gustWind (sentRun 24 8)) = false := by
  decide

/-- The battery-low bit is among the flags. -/
theorem test_layout_refuses_battery_outside_flags :
    longLayoutWf { sampleLayout with batteryLow := 0 } = false := by decide

/-! ### The commands: STATUS vectors K1 to K13 -/

theorem test_K1_nop : statusAfter .nop State.reset = 0x00000000 := by decide
theorem test_nop_clears_rejected :
    statusAfter .nop (holding { shortSession .done with cmdRejected := true, result := Result.timeout } (.time 0)) =
      0x00000044 := by decide
theorem test_K2_no_session : statusAfter .decodeOnce State.reset = 0x00001054 := by decide
theorem test_K3_reserved :
    statusAfter .reservedF (stateOf (exec .decodeOnce State.reset)) = 0x00001154 := by decide
theorem test_K6_decodeOnce : statusAfter .decodeOnce (holding (shortSession .idle) (.time 0)) = 0x00000009 := by decide
theorem test_K7_startSession_busy :
    statusAfter (.startSession true true true) (holding (shortSession .receiving) (.time 0)) = 0x0000010A := by decide
theorem test_K8_snapshot_busy :
    statusAfter .snapshot (holding (shortSession .receiving) (.time 0)) = 0x0000000A := by decide
theorem test_K10_reinit_busy :
    statusAfter .reinit (holding (shortSession .receiving) (.time 0)) = 0x0000010A := by decide
theorem test_K12_reinit : statusAfter .reinit (holding showingSample (.time 0)) = 0x00000000 := by decide

/-- 46_host_commands.md R281: `wr CMD, 0x00000301` after DEADLINE = 1000. -/
theorem test_startSession_registers :
    let b := (stateOf (exec (decode 0x00000301) (holding { Block.reset with deadline := 1000 } (.time 0)))).blk
    readReg .session b = 0x00000301 ∧ readReg .sessionDeadline b = 0x000003E8 := by decide

/-! ### The bus vectors of §7 -/

/-- The frame of E1 passes its check whatever `P_CHK_MASK_SEED` is (R198), so the block that shows it does not fault. -/
theorem showingSample_lawful : showingSample.lawful Config.params = true := by
  have hsum : checksumShort Config.params.chkMaskSeed (checkedBytes samplePacket) = 0x52 := by
    show checksumWith _ (0x52 ^^^ checksumWith _ 0 sampleBytes) sampleBytes = _
    rw [checksumWith_acc, BitVec.xor_assoc, BitVec.xor_self, BitVec.xor_zero]
  refine (Block.lawful_iff _ _).2 ⟨by decide, by decide, by decide, by decide, by decide, by decide,
    (Block.readingEarned_iff _ _).2 ⟨fun _ => ⟨rfl, rfl, (shortFramePasses_iff _ _).2 ⟨by decide, hsum, by decide⟩,
      by decide⟩, fun h => nomatch h⟩⟩

/-- A step from that block serves the event. -/
theorem step_showing (e : Event) :
    step (holding showingSample e) = serve Config.params e { State.reset with blk := showingSample } :=
  step_of_lawful_running rfl showingSample_lawful

theorem test_bus_half_word_read :
    (stateOf (step (holding showingSample (.bus ⟨false, 0x10, 2, 0⟩)))).response = some (.read 0 true) := by
  rw [step_showing]; rfl
theorem test_bus_misaligned_write :
    (stateOf (step (holding showingSample (.bus ⟨true, 0x12, 4, 5⟩)))).response = some (.write true) := by
  rw [step_showing]; rfl
theorem test_bus_status_read :
    (stateOf (step (holding showingSample (.bus ⟨false, 0x10, 4, 0⟩)))).response =
      some (.read 0x00000014 false) := by
  rw [step_showing]; rfl

/-! ### The engine, the header synchronizer and the accumulator (§2.2, §5) -/

theorem test_iteration_table :
    [(false, false), (false, true), (true, false), (true, true)].map
        (fun c => (nextExpected c.2 c.1, nextExpected c.2 c.1 ^^ true)) =
      [(true, false), (false, true), (true, false), (false, true)] := by decide
theorem test_H3_header : (feedBits paramsA (frameStream 8 []) (shortSession .searching).attemptStart).toOption.map
    (fun t => (t.recov.saw0, t.cnt.headers)) = some (true, 1) := by decide
theorem test_H2_short_run : (feedBits paramsA (frameStream 7 []) (shortSession .searching).attemptStart).toOption.map
    (fun t => (t.state, t.cnt.headers)) = some (.searching, 0) := by decide
theorem test_A7_partial_byte :
    (feedBits paramsA (frameStream 8 [true, false, true]) (shortSession .searching).attemptStart).toOption.map
      (fun t => (t.frame.acc, t.frame.nb, t.frame.filled)) = some (0x05, 3, 0) := by decide

/-! ### The states that R69 excludes (10_state.md) -/

/-- A shown reading whose own registers fail the checksum, and one that no frame backs. -/
theorem test_unearned_reading_unlawful :
    ({ showingSample with result := { showingSample.result with short1 := 0x530B02BB } } : Block).lawful paramsA = false ∧
      ({ showingSample with frame := RawFrame.empty } : Block).lawful paramsA = false ∧
      showingSample.lawful paramsA = true := by decide

/-- The long signature decided in a session that accepts the family, and the target 7 again. -/
theorem test_decreased_target_unlawful :
    let b : Block := { decodingLong longPacket with
      state := .receiving
      sess := { (shortSession .idle).sess with accLong := true }
      frame := { RawFrame.empty with raw := #v[0x0F, 0xA1, 0, 0, 0, 0, 0, 0, 0, 0, 0, 0, 0, 0, 0, 0], filled := 2,
                                     famDecided := true, target := .long } }
    b.lawful paramsA = true ∧ ({ b with frame := { b.frame with target := .short } } : Block).lawful paramsA = false := by
  decide

/-! ### The decoders (§3, §4) -/

theorem test_chk_A :
    [[0x45, 0x4F, 0x04, 0x4B, 0x64], [0x45, 0x4F, 0xF4, 0x4B, 0x0B], [0xFF, 0xFF, 0xFF, 0xFF, 0xFF]].map
      (checksumShort 0x64) = [0x67, 0xB6, 0xB9] := by decide
theorem test_chk_B :
    [[0x45, 0x4F, 0x04, 0x4B, 0x64], [0x45, 0x4F, 0xF4, 0x4B, 0x0B], [0xFF, 0xFF, 0xFF, 0xFF, 0xFF]].map
      (checksumShort 0x7C) = [0x04, 0xE3, 0x40] := by decide
theorem test_E1_words :
    (blockAfter false 0 (decodingShort samplePacket)).map (fun b => (b.result.short0, b.result.short1, b.result.seq)) =
      some (0x044B4F01, 0x520B02BB, 1) := by decide
theorem test_V3_humidity_101 :
    (blockAfter false 0 (decodingShort ((samplePacket.set 5 0x65).set 6 0x1B))).map (·.lastAbort) =
      some (some .rangeViolation) := by decide
theorem test_V5_negative_temperature :
    tempF10Field (sdWord1 ((samplePacket.set 3 0x00).set 4 0x00)) = 0xFE70 := by decide
theorem test_L1_realign :
    (payload #v[0x00, 0x11, 0x22, 0x33, 0x44, 0x55, 0x66, 0x77, 0x88, 0x99, 0xAA, 0xBB, 0xCC, 0xDD, 0xEE, 0xFF]).toList =
      [0x12, 0x23, 0x34, 0x45, 0x56, 0x67, 0x78, 0x89, 0x9A, 0xAB, 0xBC, 0xCD, 0xDE, 0xEF] := by decide
theorem test_L2_identity :
    crcOver (fun x => x) [0x12, 0x34, 0x56, 0x78, 0x9A, 0xBC, 0xDE, 0xF0, 0x11, 0x22, 0x33, 0x44, 0x55] = 0xD1 := by
  decide
theorem test_L3_words :
    let b := ldAccept (payload longPacket) (decodingLong longPacket)
    (b.result.long0, b.result.long1, b.result.long2, b.result.long3) =
      (0x78563412, 0xF0DEBC9A, 0x44332211, 0x00003055) := by decide

/-- A raw temperature of 1099 is 699 tenths, as in E1 (43_short_decoder.md R195): the payload bytes P[7] and P[8] hold
0x44B under `sampleLayout`. -/
theorem test_long_temperature :
    longTempF10 sampleLayout { Block.reset with
      result := { Result.none with long1 := 0x04000000, long2 := 0x0000004B } } = 699 := by decide

/-! ### The controller: the deadline vectors S1 to S5 -/

theorem test_S_deadline :
    [((0 : Word), (0 : Micros)), (5, 4999), (5, 5000), (0xFFFFFFFF, 4294967294999), (0xFFFFFFFF, 4294967295000)].map
        (fun c => (csSearch c.2 { shortSession .searching with
          sess := { (shortSession .idle).sess with dlMs := c.1 } }).state) =
      [.done, .receiving, .done, .receiving, .done] := by decide

/-! ### Witnesses: states and operands that meet the hypotheses of each statement -/

theorem witness_DecodeOfEncode :
    (Instr.startSession true false true).wf = true ∧ Instr.reservedF.wf = true := by decide

theorem witness_WordSelectsCommand :
    (0x00000701 : Word).extractLsb' 0 4 = 1 ∧ (0xFFFFFFF3 : Word).extractLsb' 0 4 ≠ 1 ∧
      (0x00000003 : Word).extractLsb' 0 4 = (0xFFFFFFF3 : Word).extractLsb' 0 4 := by decide

theorem witness_ReservedBitsIgnored :
    (0x00000501 : Word).extractLsb' 0 4 = (0xFFFFFDF1 : Word).extractLsb' 0 4 ∧
      (0x00000501 : Word).extractLsb' 8 3 = (0xFFFFFDF1 : Word).extractLsb' 8 3 ∧ Instr.nop.opcode ≠ 1 := by decide

theorem witness_OnlyShortBytesRejected :
    decodeBytes [1, 1, 0] = .error .truncated ∧ decodeBytes [1, 1, 0, 0] ≠ .error .truncated := by decide

theorem witness_StepRunsDecodedCommand :
    let s := holding (shortSession .receiving) (.bus (commandRequest 0x00000003))
    s.rst = false ∧ s.blk.lawful Config.params = true ∧ s.nextEvent = .bus (commandRequest 0x00000003) := by decide

theorem witness_AccessLegality :
    let rs : List BusRequest := [⟨false, 0x3C, 4, 0⟩, ⟨true, 0x00, 4, 1⟩, ⟨false, 0x10, 2, 0⟩, ⟨true, 0x12, 4, 0⟩]
    rs.all (fun r => decide ((holding timedOut (.bus r)).rst = false ∧
        (holding timedOut (.bus r)).blk.lawful Config.params = true ∧ (holding timedOut (.bus r)).nextEvent = .bus r)) ∧
      rs.map (fun r => (decide (r.size = 4 ∧ r.addr.extractLsb' 0 2 = 0), r.we)) =
        [(true, false), (true, true), (false, false), (false, true)] := by decide

theorem witness_ReadHasNoSideEffect :
    [Reg.cmd, .resShort0, .reserved3C].all (fun r => decide ((holding timedOut (.bus (rd r))).rst = false ∧
      (holding timedOut (.bus (rd r))).blk.lawful Config.params = true ∧
      (holding timedOut (.bus (rd r))).nextEvent = .bus (rd r))) := by decide

theorem witness_WriteRegister :
    [Reg.cmd, .deadline, .session, .reserved3C].all (fun r =>
      decide ((holding timedOut (.bus (wr r 5))).rst = false ∧
        (holding timedOut (.bus (wr r 5))).blk.lawful Config.params = true ∧
        (holding timedOut (.bus (wr r 5))).nextEvent = .bus (wr r 5))) := by decide

theorem witness_StatusFields :
    (holding timedOut (.time 0)).rst = false ∧ ({ holding timedOut (.time 0) with rst := true } : State).rst = true := by
  decide

theorem witness_DeadlineWriteOnlyStores :
    let s := holding (shortSession .receiving) (.bus (wr .deadline 0xFFFFFFFF))
    s.rst = false ∧ s.blk.lawful Config.params = true ∧ s.nextEvent = .bus (wr .deadline 0xFFFFFFFF) := by decide

theorem witness_NopOnlyClearsRejected : (0xFFFFFFF0 : Word).extractLsb' 0 4 = 0 := by decide

/-- For the last clause: a block in DONE that serves a DECODE_ONCE. -/
theorem witness_StartSessionLatches :
    (0x00000701 : Word).extractLsb' 0 4 = 1 ∧ (holding (shortSession .idle) (.time 0)).blk.busy = false ∧
      (holding timedOut (.time 0)).blk.busy = false ∧ (holding (shortSession .decoding) (.time 0)).blk.busy = true ∧
      let s := holding timedOut (.bus (commandRequest 0x00000002))
      s.rst = false ∧ (∃ t, step s = .next t) ∧ s.nextEvent ≠ .rst true ∧
        ∀ w, s.nextEvent = .bus (commandRequest w) →
          (∀ a l pol, decode w ≠ .startSession a l pol) ∧ decode w ≠ .reinit := by
  refine ⟨by decide, by decide, by decide, by decide, rfl, ⟨_, rfl⟩, by simp [holding, State.nextEvent], fun w h => ?_⟩
  have hw : (0x00000002 : Word) = w := by simpa [holding, State.nextEvent, commandRequest] using h
  subst hw
  decide

theorem witness_DecodeOnceStartsOrMisuses :
    let none := Block.reset
    let neither := (startSessionEffect false false true Block.reset)
    let short := (startSessionEffect true false false Block.reset)
    let long := (startSessionEffect false true false timedOut)
    (0x000000F2 : Word).extractLsb' 0 4 = 2 ∧ (shortSession .searching).busy = true ∧
    (none.busy = false ∧ none.sess.cfgValid = false) ∧
    (neither.busy = false ∧ neither.sess.cfgValid = true ∧ neither.sess.accShort = false ∧
      neither.sess.accLong = false) ∧
    (short.busy = false ∧ short.sess.cfgValid = true ∧ short.sess.accShort = true) ∧
    (long.busy = false ∧ long.sess.cfgValid = true ∧ long.sess.accLong = true) := by decide

/-- For the last clause: a block in DONE that serves a START_SESSION. -/
theorem witness_SnapshotCopiesCounters :
    (0xFFFFFFF3 : Word).extractLsb' 0 4 = 3 ∧
      let s := holding timedOut (.bus (commandRequest 0x00000101))
      s.rst = false ∧ (∃ t, step s = .next t) ∧ s.nextEvent ≠ .rst true ∧
        ∀ w, s.nextEvent = .bus (commandRequest w) → decode w ≠ .snapshot ∧ decode w ≠ .reinit := by
  refine ⟨by decide, rfl, ⟨_, rfl⟩, by simp [holding, State.nextEvent], fun w h => ?_⟩
  have hw : (0x00000101 : Word) = w := by simpa [holding, State.nextEvent, commandRequest] using h
  subst hw
  decide

theorem witness_ReinitRestoresReset :
    (0x00000704 : Word).extractLsb' 0 4 = 4 ∧ (holding timedOut (.time 0)).blk.busy = false ∧
      (holding (shortSession .receiving) (.time 0)).blk.busy = true := by decide

theorem witness_ReservedOnlyRejects :
    5 ≤ ((0x00000005 : Word).extractLsb' 0 4).toNat ∧ 5 ≤ ((0xFFFFFFFF : Word).extractLsb' 0 4).toNat ∧
      5 ≤ Instr.reserved5.opcode.toNat ∧ 5 ≤ Instr.reservedF.opcode.toNat := by decide

theorem witness_RejectedReflectsLastCommand :
    let cmd := holding (shortSession .receiving) (.bus (commandRequest 0x00000004))
    let pin := holding { timedOut with cmdRejected := true } (.rst true)
    let other := holding { timedOut with cmdRejected := true } (.bus (wr .deadline 7))
    (cmd.rst = false ∧ ∃ t, step cmd = .next t) ∧ (pin.rst = false ∧ pin.nextEvent = .rst true ∧ ∃ t, step pin = .next t) ∧
      (other.rst = false ∧ (∀ w, other.nextEvent ≠ .bus (commandRequest w)) ∧ other.nextEvent ≠ .rst true ∧
        ∃ t, step other = .next t) :=
  ⟨⟨rfl, _, rfl⟩, ⟨rfl, rfl, _, rfl⟩, rfl, by simp [holding, State.nextEvent, wr, commandRequest, Reg.offset],
    by simp [holding, State.nextEvent], _, rfl⟩

theorem witness_ResetState :
    let s := holding (shortSession .receiving) (.rst true)
    s.held.blk.lawful Config.params = true ∧ s.nextEvent = .rst true ∧ State.reset.blk.busy = false := by decide

theorem witness_HeldInReset :
    let s : Event → State := fun e => { holding timedOut e with rst := true }
    (holding timedOut (.rst true)).held.blk.lawful Config.params = true ∧
      [Event.block true, .bus (rd .status), .bus (wr .cmd 2), .rst false].all
        (fun e => decide ((s e).rst = true ∧ (s e).nextEvent = e)) := by decide

theorem witness_PollWaitsForLevel :
    (inPhase .waitLevel).state = .receiving ∧ (inPhase .waitLevel).recov.ph = .waitLevel ∧
      true = (inPhase .waitLevel).recov.expected ∧ false ≠ (inPhase .waitLevel).recov.expected := by decide

theorem witness_ShortDelayCheck :
    let b := inPhase .waitShort
    b.state = .receiving ∧ b.recov.ph = .waitShort ∧ ((349 : Micros) - b.recov.tRef).toNat < paramsA.shortDelayUs ∧
      paramsA.shortDelayUs ≤ ((350 : Micros) - b.recov.tRef).toNat ∧ true = b.recov.expected ∧
      false ≠ b.recov.expected := by decide

theorem witness_LongDelayEmitsBit :
    let b := inPhase .waitLong
    b.state = .receiving ∧ b.recov.ph = .waitLong ∧ ((599 : Micros) - b.recov.tRef).toNat < paramsA.longDelayUs ∧
      paramsA.longDelayUs ≤ ((600 : Micros) - b.recov.tRef).toNat := by decide

/-- T = 1000: half a period of 500, and `ε = δ = 0`; the last line takes the largest delays that R352 allows. -/
theorem witness_SteadyStateDecodesNextSymbol :
    let b := inPhase .waitLevel
    b.state = .receiving ∧ b.recov.ph = .waitLevel ∧ b.recov.expected = (true ^^ b.sess.pol) ∧
      (0 + paramsA.shortDelayUs < 500 ∧ 500 < 0 + paramsA.shortDelayUs + 0 + paramsA.longDelayUs ∧
        0 + paramsA.shortDelayUs + 0 + paramsA.longDelayUs < 2 * 500) ∧
      (249 + paramsA.shortDelayUs < 500 ∧ 500 < 249 + paramsA.shortDelayUs + 0 + paramsA.longDelayUs ∧
        249 + paramsA.shortDelayUs + 0 + paramsA.longDelayUs < 2 * 500) := by decide

theorem witness_LineReadOnlyByEngine :
    (decodingShort samplePacket).state ≠ .receiving ∧
      ∃ d, pendingDelay paramsA (inPhase .waitShort) = some d ∧
        ((349 : Micros) - (inPhase .waitShort).recov.tRef).toNat < d :=
  ⟨by decide, 250, by decide⟩

/-- A delay is `Config`'s, of any length: the state is at the very start of one, and the time given is the latest. -/
theorem witness_TimeStopsAtDueInstant :
    let waiting := holding (inPhase .waitLevel) (.time 9)
    let short := { holding (inPhase .waitShort) (.time 0xFFFFFFFFFFFFFFFF) with now := 100 }
    (waiting.rst = false ∧ waiting.blk.lawful Config.params = true ∧ waiting.nextEvent = .time 9 ∧
      pendingDelay Config.params waiting.blk = none ∧ waiting.now ≤ 9) ∧
    (short.rst = false ∧ short.blk.lawful Config.params = true ∧ short.nextEvent = .time 0xFFFFFFFFFFFFFFFF ∧
      pendingDelay Config.params short.blk = some Config.params.shortDelayUs ∧ short.blk.recov.tRef ≤ short.now ∧
      (short.now - short.blk.recov.tRef).toNat ≤ Config.params.shortDelayUs) :=
  ⟨by decide, rfl, by decide, rfl, rfl, by decide, Nat.zero_le _⟩

theorem witness_HeaderSyncBit :
    [(0 : Byte), 6, 7, 8].all (fun run => decide ((afterOnes run).recov.saw0 = false ∧
        (afterOnes run).recov.run ≤ paramsA.headerThreshold)) ∧
      (afterOnes 6).recov.run.toNat + 1 < paramsA.headerThreshold.toNat ∧
      (afterOnes 7).recov.run.toNat + 1 = paramsA.headerThreshold.toNat ∧
      (afterOnes 8).recov.run = paramsA.headerThreshold ∧ (afterOnes 7).recov.run < paramsA.headerThreshold := by decide

theorem witness_ThresholdBoundary :
    paramsA.wf = true ∧ 7 < paramsA.headerThreshold.toNat ∧ paramsA.headerThreshold.toNat ≤ 8 := by decide

theorem witness_DataBitAccumulates :
    let partly := { beforeLastBit 1 with frame := { (beforeLastBit 1).frame with nb := 6 } }
    let full := { beforeLastBit 7 with frame := { (beforeLastBit 7).frame with nb := 0 } }
    (full.recov.saw0 = true ∧ full.frame.target.bytes ≤ full.frame.filled.toNat) ∧
    (partly.recov.saw0 = true ∧ partly.frame.nb ≠ 7 ∧ partly.frame.filled.toNat < partly.frame.target.bytes) ∧
    ((beforeLastBit 6).recov.saw0 = true ∧ (beforeLastBit 6).frame.nb = 7 ∧
      (beforeLastBit 6).frame.filled.toNat < (beforeLastBit 6).frame.target.bytes) ∧
    ((beforeLastBit 7).recov.saw0 = true ∧
      (beforeLastBit 7).frame.target.bytes ≤ (beforeLastBit 7).frame.filled.toNat) := by decide

set_option maxRecDepth 4000 in
theorem witness_FrameStreamIsCaptured :
    let short := samplePacket.toList.take 7 |>.flatMap bitsMsbFirst
    let long := longPacket.toList.flatMap bitsMsbFirst
    paramsA.wf = true ∧ paramsA.headerThreshold.toNat ≤ 8 ∧ short.length = 8 * frameLength paramsA true short ∧
      long.length = 8 * frameLength paramsA true long := by decide

theorem witness_ShortChecksInOrder :
    let wrongFamily := decodingShort (samplePacket.set 1 0x44)
    let wrongSum := decodingShort (samplePacket.set 6 0x53)
    let wet := decodingShort ((samplePacket.set 5 0x65).set 6 0x1B)
    (wrongFamily.state = .decoding ∧ wrongFamily.frame.target = .short ∧ wrongFamily.frame.raw[1] ≠ 0x45) ∧
    (wrongSum.sess.accShort = true ∧ wrongSum.frame.raw[1] = 0x45 ∧
      checksumShort 0x64 (checkedBytes wrongSum.frame.raw) ≠ wrongSum.frame.raw[6]) ∧
    (wet.sess.accShort = true ∧ wet.frame.raw[1] = 0x45 ∧
      checksumShort 0x64 (checkedBytes wet.frame.raw) = wet.frame.raw[6] ∧ 100 < wet.frame.raw[5].toNat) := by decide

/-- V2: the humidity at its bound. -/
theorem witness_ShortFramePublished :
    let b := decodingShort ((samplePacket.set 5 0x64).set 6 0x67)
    b.state = .decoding ∧ b.frame.target = .short ∧ b.sess.accShort = true ∧ b.frame.raw[1] = 0x45 ∧
      checksumShort paramsA.chkMaskSeed
        [b.frame.raw[1], b.frame.raw[2], b.frame.raw[3], b.frame.raw[4], b.frame.raw[5]] = b.frame.raw[6] ∧
      b.frame.raw[5].toNat ≤ 100 := by decide

theorem witness_SingleByteCorruptionDetected :
    sampleBytes.length = 5 ∧ (4 : Nat) < 5 ∧ (0x0C : Byte) ≠ sampleBytes.getD 4 0 := by decide

theorem witness_ShortFrameByteZeroUnread :
    let b := decodingShort samplePacket
    b.state = .decoding ∧ b.frame.target = .short ∧ (samplePacket.set 0 0x00)[0] ≠ samplePacket[0] ∧
      ∀ i : Fin 16, 1 ≤ i.val → i.val ≤ 6 → ((samplePacket.set 0 0x00).set 7 0xFF)[i] = b.frame.raw[i] := by decide

/-- L3 under the identity table, whose CRC is 0xD1 and not 0x30. -/
theorem witness_LongCrcMismatchRejected :
    let b := decodingLong longPacket
    b.state = .decoding ∧ b.frame.target = .long ∧
      ((payload b.frame.raw).toList.take 13).foldl (fun crc byte => paramsA.crcTable (crc ^^^ byte)) 0xC0 ≠
        (payload b.frame.raw)[13] := by decide

theorem witness_LongFramePublished :
    let b := decodingLong longPacketIdentity
    b.state = .decoding ∧ b.frame.target = .long ∧
      ((payload b.frame.raw).toList.take 13).foldl (fun crc byte => paramsA.crcTable (crc ^^^ byte)) 0xC0 =
        (payload b.frame.raw)[13] := by decide

/-- L5 and L6 together. -/
theorem witness_LongFrameUncoveredBits :
    let b := decodingLong longPacketIdentity
    let raw := ((longPacketIdentity.set 0 0x00).set 1 0x51).set 15 0x1F
    b.state = .decoding ∧ b.frame.target = .long ∧
      raw[1].extractLsb' 0 4 = b.frame.raw[1].extractLsb' 0 4 ∧
      (∀ i : Fin 16, 2 ≤ i.val → i.val ≤ 14 → raw[i] = b.frame.raw[i]) ∧
      raw[15].extractLsb' 4 4 = b.frame.raw[15].extractLsb' 4 4 := by decide

theorem witness_SearchTestsDeadline :
    let b := shortSession .searching
    b.state = .searching ∧ 1000 * b.sess.dlMs.toNat ≤ ((5000 : Micros) - b.tCall).toNat ∧
      ((4999 : Micros) - b.tCall).toNat < 1000 * b.sess.dlMs.toNat := by decide

theorem witness_QuiescentStates :
    let idle := holding (shortSession .idle) (.block true)
    let done := holding timedOut (.time 9)
    (idle.rst = false ∧ idle.blk.lawful Config.params = true ∧ idle.blk.state = .idle ∧ idle.nextEvent = .block true) ∧
    (done.rst = false ∧ done.blk.lawful Config.params = true ∧ done.blk.state = .done ∧ done.nextEvent = .time 9) := by decide

/-- A machine inside an attempt, two bytes of the frame received, that polls a line at the awaited level. -/
def polling : State :=
  holding { shortSession .receiving with
    recov := { Recovery.fresh false with run := Config.params.headerThreshold, inPre := false, saw0 := true }
    frame := { RawFrame.empty with
      raw := #v[0xFD, 0x45, 0, 0, 0, 0, 0, 0, 0, 0, 0, 0, 0, 0, 0, 0], filled := 2, famDecided := true }
    cnt := { headers := 1, short := 0, long := 0 } } (.block true)

/-- A busy machine meets the invariant. -/
theorem witness_inv : polling.Inv where
  reset_of_rst := by decide
  blk :=
    { lawful := by decide
      run_le := BitVec.le_refl _
      inPre_eq := by simp [polling, holding]
      run_of_saw0 := fun _ => rfl
      empty_of_not_saw0 := by decide
      room := by decide
      full := by decide
      famDecided_eq := by decide
      long_target := fun h => nomatch h
      unfilled_zero := by decide
      result_of_busy := by decide
      result_of_idle := by decide
      kind_of_done := by decide
      cause_iff := by decide
      session_of_busy := by decide
      no_err := by decide
      tCall_le := by decide
      tRef_le := by decide
      delay_due := fun _ h => nomatch h }

/-- The busy machine takes its poll, inside the attempt before and after. -/
theorem witness_poll :
    ∃ t, step polling = .next t ∧ polling.blk.inAttempt = true ∧ t.blk.inAttempt = true ∧
      polling.blk.frame.famDecided = true ∧ (0 : Fin 16).val < polling.blk.frame.filled.toNat :=
  ⟨_, rfl, rfl, rfl, rfl, by decide⟩

theorem witness_AttemptOnlyAdds :
    polling.rst = false ∧ polling.blk.Inv Config.params polling.now ∧ polling.blk.inAttempt = true ∧
      ∃ t, step polling = .next t ∧ t.blk.inAttempt = true :=
  ⟨rfl, witness_inv.blk, rfl, _, rfl, rfl⟩

theorem witness_ControllerTransitions : polling.Inv ∧ ∃ t, step polling = .next t := ⟨witness_inv, _, rfl⟩

theorem witness_DeadlineUnreadInAttempt :
    ∃ t, (decodingShort samplePacket).inAttempt = true ∧
      blockStep paramsA false 0 (decodingShort samplePacket) = .ok t := ⟨_, rfl, rfl⟩

/-- A step that counts nothing, and one that resets the counters; the turns that count need `Config`'s parameters. -/
theorem witness_CountersCountOnlyTheirEvents :
    let s := holding timedOut (.bus (commandRequest 0x00000004))
    (polling.rst = false ∧ ∃ t, step polling = .next t ∧ t.blk.cnt = polling.blk.cnt) ∧
      s.rst = false ∧ ∃ t, step s = .next t ∧ t.blk = Block.reset ∧ t.blk.cnt ≠ s.blk.cnt :=
  ⟨⟨rfl, _, rfl, rfl⟩, rfl, _, rfl, rfl, by decide⟩

theorem witness_ResultStaysInDone :
    let s := holding timedOut (.bus (commandRequest 0x00000101))
    s.rst = false ∧ s.blk.state = .done ∧ (∃ t, step s = .next t) ∧ s.nextEvent ≠ .rst true ∧
      ∀ w, s.nextEvent = .bus (commandRequest w) → decode w ≠ .decodeOnce ∧ decode w ≠ .reinit := by
  refine ⟨rfl, rfl, ⟨_, rfl⟩, by simp [holding, State.nextEvent], fun w h => ?_⟩
  have hw : (0x00000101 : Word) = w := by simpa [holding, State.nextEvent, commandRequest] using h
  subst hw
  decide

theorem witness_ResultChangesOnlyAtFinishOrClear :
    let s := holding timedOut (.bus (commandRequest 0x00000002))
    s.rst = false ∧ ∃ t, step s = .next t ∧ t.blk.result ≠ s.blk.result :=
  ⟨rfl, _, rfl, by decide⟩

theorem witness_BlockStepFrame : ∃ t, blockStep paramsA false 0 (decodingShort samplePacket) = .ok t := ⟨_, rfl⟩

theorem witness_StepKeepsInvariant : polling.Inv ∧ ∃ t, step polling = .next t := ⟨witness_inv, _, rfl⟩

theorem witness_NoFaultUnderInvariant : polling.Inv := witness_inv

theorem witness_HeadersCoverAcceptedFrames :
    polling.Inv ∧ polling.blk.HeadersCover ∧ polling.blk.cnt.headers ≠ 0xFFFFFFFF ∧ ∃ t, step polling = .next t :=
  ⟨witness_inv, by unfold Block.HeadersCover; decide, by decide, _, rfl⟩

/-- The CRC of the payload bytes of `longFrame`. -/
def longFrameCrc (p : Params) : Byte :=
  crcOver p.crcTable [joinNibbles p.longSig 0x11, 0x11, 0, 0, 0, 0, 0, 0, 0, 0, 0, 0, 0]

/-- A frame of the long family for any signature and any table: the type byte is the signature, and the CRC byte is the
CRC of the payload that the other bytes give. -/
def longFrame (p : Params) : Vector Byte 16 :=
  #v[0, p.longSig, 0x11, 0x10, 0, 0, 0, 0, 0, 0, 0, 0, 0, 0, 0#4 ++ (longFrameCrc p).extractLsb' 4 4,
    (longFrameCrc p).extractLsb' 0 4 ++ 0#4]

/-- A block in DONE that shows it. -/
def showingLong : Block :=
  let b := decodingLong (longFrame Config.params)
  ldAccept (payload b.frame.raw) b

theorem longFrame_passes (p : Params) : longFramePasses p (payload (longFrame p)) = true := by
  have hlow : ∀ a b : BitVec 4, (a ++ b).extractLsb' 0 4 = b := by decide
  have hhigh : ∀ a b : BitVec 4, (a ++ b).extractLsb' 4 4 = a := by decide
  have hjoin : ∀ c : Byte, c.extractLsb' 4 4 ++ c.extractLsb' 0 4 = c := by decide
  have hcrc : ∀ c : Byte, joinNibbles (0#4 ++ c.extractLsb' 4 4) (c.extractLsb' 0 4 ++ 0#4) = c := fun c => by
    unfold joinNibbles; rw [hlow, hhigh, hjoin]
  have hlast : ∀ c : Byte, joinNibbles 0 (0#4 ++ c.extractLsb' 4 4) = 0 := fun c => by
    unfold joinNibbles; rw [hhigh]; rfl
  rw [longFramePasses_iff]
  have htake : (payload (longFrame p)).toList.take 13 =
      [joinNibbles p.longSig 0x11, 0x11, 0, 0, 0, 0, 0, 0, 0, 0, 0, 0,
        joinNibbles 0 (0#4 ++ (longFrameCrc p).extractLsb' 4 4)] := by
    simp [payload, reconstructed, longFrame]
    decide
  have hlastByte : (payload (longFrame p))[13] =
    joinNibbles (0#4 ++ (longFrameCrc p).extractLsb' 4 4) ((longFrameCrc p).extractLsb' 0 4 ++ 0#4) := rfl
  rw [payloadCrc, htake, hlastByte, hlast, hcrc]
  rfl

theorem showingLong_lawful : showingLong.lawful Config.params = true :=
  (Block.lawful_iff _ _).2 ⟨by decide, fun h => (nomatch h),
    (Block.targetEarned_iff _ _).2 ⟨fun _ => ⟨rfl, by decide, rfl, fun h => (nomatch h)⟩, fun h => (nomatch h)⟩,
    fun h => (nomatch h), rfl, rfl, Block.readingEarned_ldAccept rfl (longFrame_passes _)⟩

/-- Steps into states that show a reading, one of each family. -/
theorem witness_ReadingsAreWhole :
    let s := holding showingSample (.bus (rd .resShort0))
    let l := holding showingLong (.bus (rd .resLong0))
    (s.rst = false ∧ ∃ t, step s = .next t ∧ t.window .resShort0 ≠ 0 ∧ t.window .resSeq ≠ 0 ∧
      t.blk.result.kind = .thermoHygro ∧ t.held.blk.result.kind = .thermoHygro) ∧
    (l.rst = false ∧ ∃ t, step l = .next t ∧ t.window .resLong0 ≠ 0 ∧ t.window .resSeq ≠ 0 ∧
      t.blk.result.kind = .weatherStation ∧ t.held.blk.result.kind = .weatherStation) := by
  refine ⟨⟨rfl, _, step_showing _, by decide, by decide, rfl, rfl⟩, rfl, _,
    step_of_lawful_running rfl showingLong_lawful, fun h => ?_, by decide, rfl, rfl⟩
  have hbit : (packWord (joinNibbles Config.params.longSig 0x11) 0x11 0 0).getLsbD 8 = true := by
    rw [packWord_getLsbD _ _ _ _ _ (by decide)]; rfl
  rw [show packWord (joinNibbles Config.params.longSig 0x11) 0x11 0 0 = 0 from h] at hbit
  exact absurd hbit (by decide)

theorem witness_AttemptOutcomeInvisible : polling.rst = false ∧ ∃ t, step polling = .next t := ⟨rfl, _, rfl⟩

theorem witness_StuckLineHangs :
    let s : State := { holding (inPhase .waitLevel) (.time 1000000) with
      inputs := [.bus (wr .cmd 0x00000004), .block false, .time 1000000, .bus (rd .status), .rst false] }
    s.rst = false ∧ s.blk.lawful Config.params = true ∧ s.blk.state = .receiving ∧ s.blk.recov.ph = .waitLevel ∧
      quietAt (!s.blk.recov.expected) s.nextEvent = true ∧
      s.inputs.all (quietAt !s.blk.recov.expected) = true ∧ 5 ≤ s.inputs.length := by decide

theorem witness_LineAtOppositeLevelAborts :
    paramsA.wf = true ∧ paramsA.shortDelayUs ≤ ((250 : Micros) - 0).toNat ∧
      paramsA.longDelayUs ≤ ((750 : Micros) - 250).toNat := by decide

theorem witness_StepServesBlockTimeAndReset :
    let t := holding (inPhase .waitShort) (.time 7)
    let r := fun level => holding (inPhase .waitShort) (.rst level)
    (polling.rst = false ∧ polling.blk.lawful Config.params = true ∧ polling.nextEvent = .block true ∧
      ∃ b, blockStep Config.params true polling.now polling.blk = .ok b) ∧
    (t.rst = false ∧ t.blk.lawful Config.params = true ∧ t.nextEvent = .time 7) ∧
    ((r true).held.blk.lawful Config.params = true ∧ (r true).nextEvent = .rst true) ∧
    ((r false).held.blk.lawful Config.params = true ∧ (r false).nextEvent = .rst false) :=
  ⟨⟨rfl, rfl, rfl, _, rfl⟩, by decide, by decide, by decide⟩

theorem witness_RegisterOffsets :
    (0x00 : BitVec 6).extractLsb' 0 2 = 0 ∧ (0x3C : BitVec 6).extractLsb' 0 2 = 0 := by decide

end Sys2Proof.Tests
end

section
/-! PROOFS. The statements of 10_state.md: the invariant of the machine (R53 to R69), the result and the counters (R62,
R63), the frame of an attempt (R58, R61), time and the line (R31, R32), reset (R66) and the registers (R34, R39). What one
step can do to the block outside reset is said once, in `BlockChange`; the statements about steps are read off from it. -/

namespace Sys2Proof.Machine

/-! ### The controller states -/

/-- BUSY is 1 exactly in SEARCHING, RECEIVING and DECODING (R39). -/
theorem Block.busy_iff (b : Block) :
    b.busy = true ↔ b.state = .searching ∨ b.state = .receiving ∨ b.state = .decoding := by
  unfold Block.busy
  cases b.state <;> simp [CtlState.busy]

/-- An attempt is RECEIVING or DECODING (R250). -/
theorem Block.inAttempt_iff (b : Block) : b.inAttempt = true ↔ b.state = .receiving ∨ b.state = .decoding := by
  unfold Block.inAttempt
  cases b.state <;> simp

/-- Outside a request the block is in IDLE or in DONE. -/
theorem Block.not_busy_iff (b : Block) : b.busy = false ↔ b.state = .idle ∨ b.state = .done := by
  unfold Block.busy
  cases b.state <;> simp [CtlState.busy]

/-! ### What a step does to the block -/

/-- Everything that a step of the machine can do to its block outside reset: the moves of `EventMove`, with the commands
taken apart by their effect. -/
inductive BlockChange (s : State) : Block → Prop where
  /-- A read, a refused write, or time. -/
  | same : BlockChange s s.blk
  | deadline (v : Word) : BlockChange s { s.blk with deadline := v }
  /-- A rejected command, or NOP. -/
  | rejected (v : Bool) : BlockChange s (s.blk.setRejected v)
  | session (a l pol : Bool) (hb : s.blk.busy = false) :
      BlockChange s (startSessionEffect a l pol (s.blk.setRejected false))
  | misuse (c : MisuseCause) (hb : s.blk.busy = false) (hc : c ≠ .none) :
      BlockChange s ((s.blk.setRejected false).clearResult.finish (.misuse c))
  | request (hb : s.blk.busy = false) (hv : s.blk.sess.cfgValid = true)
      (hf : s.blk.sess.accShort = true ∨ s.blk.sess.accLong = true) :
      BlockChange s { (s.blk.setRejected false).clearResult with tCall := s.now, state := .searching }
  | snapshot : BlockChange s (snapshotEffect (s.blk.setRejected false))
  | turn (rx : Bool) (b : Block) (he : s.nextEvent = .block rx) (hm : BlockMove Config.params rx s.now s.blk b) :
      BlockChange s b
  /-- `rst`, or an accepted REINIT. -/
  | reset : BlockChange s Block.reset

/-- Outside a request the block takes no step (R260). -/
theorem BlockMove.eq_of_not_busy {p : Params} {rx : Bool} {now : Micros} {b t : Block} (hb : b.busy = false)
    (h : BlockMove p rx now b t) : t = b := by
  rw [Block.not_busy_iff] at hb
  cases h with
  | stay => rfl
  | reject _ hs | _ hs => simp [hs] at hb

/-- A command is rejected, or its effect is one of the changes. -/
theorem command_blockChange (i : Instr) (s : State) :
    BlockChange s
      (if accepts i s.blk.busy then effectOf s.now i (s.blk.setRejected false) else s.blk.setRejected true) := by
  split
  · rename_i ha
    cases i with
    | nop => exact .rejected false
    | startSession a l pol => exact .session a l pol (by simpa [accepts] using ha)
    | decodeOnce =>
      show BlockChange s (decodeOnceEffect s.now (s.blk.setRejected false))
      have hb : s.blk.busy = false := by simpa [accepts] using ha
      obtain ⟨-, h⟩ | ⟨-, -, -, h⟩ | ⟨hv, hf, h⟩ := decodeOnceEffect_cases s.now (s.blk.setRejected false)
      · exact h.symm ▸ BlockChange.misuse .noSession hb (by decide)
      · exact h.symm ▸ BlockChange.misuse .noFamily hb (by decide)
      · exact h.symm ▸ BlockChange.request hb hv hf
    | snapshot => exact .snapshot
    | reinit => exact .reset
    | reserved5 | reserved6 | reserved7 | reserved8 | reserved9 | reservedA | reservedB | reservedC | reservedD
    | reservedE | reservedF => exact .rejected false
  · exact .rejected true

/-- Serving an event outside reset does one of the changes to the block. -/
theorem EventMove.blockChange {s t : State} {e : Event} (he : s.nextEvent = e)
    (h : EventMove Config.params s.consume e t) : BlockChange s t.blk := by
  cases h with
  | read r => simpa using BlockChange.same
  | illegalWrite r => simpa using BlockChange.same
  | ignoredWrite r => simpa using BlockChange.same
  | deadlineWrite r => simpa using BlockChange.deadline _
  | command r => simpa using command_blockChange (decode r.wdata) s
  | block rx b hm => exact .turn rx b he (by simpa using hm)
  | time u => simpa using BlockChange.same
  | rst level =>
    cases level
    · simpa [State.held] using BlockChange.same
    · simpa [State.held] using BlockChange.reset

/-- Outside reset, a step starts from a state that breaks no invariant of R69, and does one of the changes. -/
theorem step_blockChange {s t : State} (hr : s.rst = false) (h : step s = .next t) :
    s.blk.lawful Config.params = true ∧ BlockChange s t.blk := by
  obtain ⟨hl, hm⟩ := step_move h
  rw [State.held_of_not_rst hr] at hl hm
  exact ⟨hl, hm.blockChange rfl⟩

/-- A step that finds `rst` at 1, or leaves it there, leaves the reset block (R340). -/
theorem step_blk_of_rst {s t : State} (h : step s = .next t) (hrst : s.rst = true ∨ t.rst = true) :
    t.blk = Block.reset := by
  obtain ⟨-, hm⟩ := step_move h
  have hheld : s.held.consume.rst = true → s.held.consume.blk = Block.reset := fun hr => by
    simpa using State.held_blk_of_rst (by simpa using hr : s.rst = true)
  have hrst' : s.held.consume.rst = true ∨ t.rst = true := by simpa using hrst
  generalize s.held.consume = u at hm hheld hrst'
  generalize s.nextEvent = e at hm
  cases hm with
  | read r => simpa using hheld (by simpa using hrst')
  | illegalWrite r | ignoredWrite r => exact hheld (hrst'.elim id id)
  | deadlineWrite r _ _ hr | command r _ _ hr => exact absurd (hr.symm.trans (hrst'.elim id id)) (by decide)
  | block rx b hm =>
    have hb : u.blk = Block.reset := hheld (hrst'.elim id id)
    exact (hm.eq_of_not_busy (by rw [hb]; rfl)).trans hb
  | time u' => exact hheld (hrst'.elim id id)
  | rst level =>
    cases level
    · exact hheld (hrst'.elim id nofun)
    · rfl

/-- A step moves the time only where it serves a time event, and then nothing of the block. -/
theorem step_now {s t : State} (h : step s = .next t) :
    t.now = s.now ∨ ∃ u, t.now = timeAfter Config.params u s.now s.held.blk ∧ t.blk = s.held.blk := by
  obtain ⟨-, hm⟩ := step_move h
  generalize s.nextEvent = e at hm
  cases hm with
  | time u => exact .inr ⟨u, by simp, by simp⟩
  | _ => left; simp

/-! ### What a step does to the result -/

/-- A turn of the block leaves the result of a running request, or ends the request with a time-out or with the reading
of a frame that passed its checks. -/
theorem BlockMove.result_cases {p : Params} {rx : Bool} {now : Micros} {b t : Block} (h : BlockMove p rx now b t) :
    t = b ∨ (b.busy = true ∧ t.result = b.result) ∨ t = b.finish .timeout ∨
    (t = sdAccept b ∧ b.state = .decoding ∧ b.frame.target = .short ∧ b.sess.accShort = true ∧
      shortFramePasses p b.frame.raw = true) ∨
    (t = ldAccept (payload b.frame.raw) b ∧ b.state = .decoding ∧ b.frame.target = .long ∧
      longFramePasses p (payload b.frame.raw) = true) := by
  cases h with
  | stay => exact .inl rfl
  | timeout => exact .inr (.inr (.inl rfl))
  | acceptShort hs ht ha h1 hc hh =>
    exact .inr (.inr (.inr (.inl ⟨rfl, hs, ht, ha, (shortFramePasses_iff _ _).2 ⟨h1, hc, hh⟩⟩)))
  | acceptLong hs ht hc => exact .inr (.inr (.inr (.inr ⟨rfl, hs, ht, (longFramePasses_iff _ _).2 hc⟩)))
  | reject _ hs | _ hs => exact .inr (.inl ⟨by simp [Block.busy_iff, hs], rfl⟩)

/-- What a block shows as its result is whole: the registers as their kind allows (R40 to R43), in range, and a reading
only of a frame that passed its family's check (R69). -/
structure Block.ReadingSound (p : Params) (b : Block) : Prop where
  /-- DECODE_ERROR is never shown (R317). -/
  kind_ne : b.result.kind ≠ .decodeError
  confined : b.result.confined = true
  inRange : b.result.inRange = true
  earned : b.readingEarned p = true
  /-- The type byte of a weather-station reading is the long signature (R172). -/
  longSig : b.result.kind = .weatherStation → b.frame.raw[1] = p.longSig

/-- A state that breaks no invariant of R69 shows whole results only. -/
theorem Block.readingSound_of_lawful {p : Params} {b : Block} (h : b.lawful p = true) : b.ReadingSound p := by
  obtain ⟨-, -, htarget, hkind, hconf, hrange, hearned⟩ := (Block.lawful_iff p b).1 h
  refine ⟨hkind, hconf, hrange, hearned, fun hk => ?_⟩
  obtain ⟨-, hlong, -, -⟩ := ((Block.readingEarned_iff p b).1 hearned).2 hk
  obtain ⟨-, -, hsig, -⟩ := ((Block.targetEarned_iff p b).1 htarget).1 hlong
  exact hsig

/-- A result that is no reading shows nothing that could be unsound, if its registers are clear. -/
theorem Block.ReadingSound.of_no_reading {p : Params} {b : Block} (hc : b.result.confined = true)
    (hk : b.result.kind = .none ∨ b.result.kind = .timeout ∨ b.result.kind = .misuse) : b.ReadingSound p := by
  obtain hk | hk | hk := hk
  all_goals exact
    { kind_ne := by simp [hk]
      confined := hc
      inRange := by simp [Result.inRange, hk]
      earned := by simp [Block.readingEarned, hk]
      longSig := by simp [hk] }

/-- Soundness of a shown reading speaks of the result, the state, RawFrame and the counters alone. -/
theorem Block.ReadingSound.congr {p : Params} {b t : Block} (h : b.ReadingSound p) (hr : t.result = b.result)
    (hs : t.state = b.state) (hf : t.frame = b.frame) (hc : t.cnt = b.cnt) : t.ReadingSound p where
  kind_ne := hr ▸ h.kind_ne
  confined := hr ▸ h.confined
  inRange := hr ▸ h.inRange
  earned := by simpa only [Block.readingEarned, hr, hs, hf, hc] using h.earned
  longSig := by simpa only [hr, hf] using h.longSig

/-- While BUSY a sound block shows no reading (R263). -/
theorem Block.ReadingSound.no_reading_of_busy {p : Params} {b : Block} (h : b.ReadingSound p) (hb : b.busy = true) :
    b.result.kind = .none ∨ b.result.kind = .timeout ∨ b.result.kind = .misuse := by
  have hdone : b.state ≠ .done := fun hs => by simp [Block.busy_iff, hs] at hb
  obtain ⟨hshort, hlong⟩ := (Block.readingEarned_iff p b).1 h.earned
  cases hk : b.result.kind with
  | none => exact .inl rfl
  | timeout => exact .inr (.inl rfl)
  | misuse => exact .inr (.inr rfl)
  | decodeError => exact absurd hk h.kind_ne
  | thermoHygro => exact absurd (hshort hk).1 hdone
  | weatherStation => exact absurd (hlong hk).1 hdone

/-- A short reading uses the short registers alone. -/
theorem shortReading_confined (cnt : Counters) (raw : Vector Byte 16) : (shortReading cnt raw).confined = true := by
  simp [Result.confined, ResultKind.isReading]

/-- A long reading uses the long registers alone. -/
theorem longReading_confined (cnt : Counters) (pl : Vector Byte 14) : (longReading cnt pl).confined = true := by
  simp [Result.confined, ResultKind.isReading]

/-- The channel of a short reading is in 1..8 (R192). -/
theorem sdChannel_mem (raw : Vector Byte 16) : 1 ≤ (sdChannel raw).toNat ∧ (sdChannel raw).toNat ≤ 8 := by
  have h := (raw[3].extractLsb' 4 3).isLt
  rw [sdChannel_toNat]
  omega

/-- A short reading is in range once its humidity is (R69, R192, R197). -/
theorem shortReading_inRange (cnt : Counters) {raw : Vector Byte 16} (hh : sdHumidity raw ≤ Config.humMax) :
    (shortReading cnt raw).inRange = true := by
  obtain ⟨h1, h8⟩ := sdChannel_mem raw
  have hchannel : 1 ≤ sdChannel raw ∧ sdChannel raw ≤ 8 := ⟨h1, h8⟩
  simpa [Result.inRange, channelField_sdWord0, humidityField_sdWord1, hh] using hchannel

/-- The short family's accept shows a sound reading. -/
theorem Block.readingSound_sdAccept {p : Params} {b : Block} (ht : b.frame.target = .short)
    (h : shortFramePasses p b.frame.raw = true) : (sdAccept b).ReadingSound p where
  kind_ne := nofun
  confined := shortReading_confined _ _
  inRange := shortReading_inRange _ ((shortFramePasses_iff _ _).1 h).2.2
  earned := Block.readingEarned_sdAccept ht h
  longSig := nofun

/-- The long family's accept shows a sound reading, of a frame with the long signature. -/
theorem Block.readingSound_ldAccept {p : Params} {b : Block} (ht : b.frame.target = .long)
    (hsig : b.frame.raw[1] = p.longSig) (h : longFramePasses p (payload b.frame.raw) = true) :
    (ldAccept (payload b.frame.raw) b).ReadingSound p where
  kind_ne := nofun
  confined := longReading_confined _ _
  inRange := rfl
  earned := Block.readingEarned_ldAccept ht h
  longSig := fun _ => hsig

/-- Every change from a lawful state keeps what is shown sound. -/
theorem BlockChange.readingSound {s : State} {t : Block} (hl : s.blk.lawful Config.params = true)
    (h : BlockChange s t) : t.ReadingSound Config.params := by
  have hsound := Block.readingSound_of_lawful hl
  cases h with
  | same => exact hsound
  | deadline | rejected | session | snapshot => exact hsound.congr rfl rfl rfl rfl
  | misuse => exact .of_no_reading rfl (.inr (.inr rfl))
  | request | reset => exact .of_no_reading rfl (.inl rfl)
  | turn rx _ _ hm =>
    obtain rfl | ⟨hb, hr⟩ | rfl | ⟨rfl, -, ht, -, hpass⟩ | ⟨rfl, -, ht, hpass⟩ := hm.result_cases
    · exact hsound
    · exact .of_no_reading (hr ▸ hsound.confined) (hr ▸ hsound.no_reading_of_busy hb)
    · exact .of_no_reading rfl (.inr (.inl rfl))
    · exact Block.readingSound_sdAccept ht hpass
    · obtain ⟨-, -, htarget, -⟩ := (Block.lawful_iff _ _).1 hl
      obtain ⟨-, -, hsig, -⟩ := ((Block.targetEarned_iff _ _).1 htarget).1 ht
      exact Block.readingSound_ldAccept ht hsig hpass

/-- Everything a step does to the result: it stays, is cleared, or is the result of a request that ends (R63, R258). -/
theorem BlockChange.result_cases {s : State} {t : Block} (h : BlockChange s t) :
    t.result = s.blk.result ∨ t.result = Result.none ∨
    (t.state = .done ∧ (t.result = .timeout ∨ ∃ c, t.result = .misuse c)) ∨
    (t = sdAccept s.blk ∧ s.blk.state = .decoding ∧ s.blk.frame.target = .short ∧ s.blk.sess.accShort = true ∧
      shortFramePasses Config.params s.blk.frame.raw = true) ∨
    (t = ldAccept (payload s.blk.frame.raw) s.blk ∧ s.blk.state = .decoding ∧ s.blk.frame.target = .long ∧
      longFramePasses Config.params (payload s.blk.frame.raw) = true) := by
  cases h with
  | same | deadline | rejected | session | snapshot => exact .inl rfl
  | request | reset => exact .inr (.inl rfl)
  | misuse c => exact .inr (.inr (.inl ⟨rfl, .inr ⟨c, rfl⟩⟩))
  | turn rx _ _ hm =>
    obtain rfl | ⟨-, hr⟩ | rfl | hshort | hlong := hm.result_cases
    · exact .inl rfl
    · exact .inl hr
    · exact .inr (.inr (.inl ⟨rfl, .inl rfl⟩))
    · exact .inr (.inr (.inr (.inl hshort)))
    · exact .inr (.inr (.inr (.inr hlong)))

/-- Settles O50, from what a step can do to the result. -/
theorem resultChangesOnlyAtFinishOrClear : Obligations.ResultChangesOnlyAtFinishOrClear := by
  intro s t hr h hne
  obtain ⟨-, hc⟩ := step_blockChange hr h
  obtain hsame | hclear | ⟨hdone, -⟩ | ⟨hacc, -⟩ | ⟨hacc, -⟩ := hc.result_cases
  · exact absurd hsame hne
  · exact .inr hclear
  · exact .inl hdone
  · exact .inl (congrArg Block.state hacc)
  · exact .inl (congrArg Block.state hacc)

/-- Settles O51: each move of the block writes other fields. -/
theorem blockStepFrame : Obligations.BlockStepFrame := by
  intro p rx now b t h
  have hframe : t.deadline = b.deadline ∧ t.cmdRejected = b.cmdRejected ∧ t.sess = b.sess ∧ t.snap = b.snap ∧
      t.tCall = b.tCall := by
    cases blockStep_move h with
    | _ => exact ⟨rfl, rfl, rfl, rfl, rfl⟩
  obtain ⟨hdeadline, hrejected, hsess, hsnap, htCall⟩ := hframe
  refine ⟨hdeadline, hrejected, hsess, hsnap, htCall, fun r hr => ?_⟩
  obtain rfl | rfl | rfl | rfl | rfl | rfl := hr
  · exact hdeadline
  · exact congrArg Session.word hsess
  · exact congrArg Session.dlMs hsess
  · exact congrArg Counters.headers hsnap
  · exact congrArg Counters.short hsnap
  · exact congrArg Counters.long hsnap

/-! ### The counters -/

/-- The level awaited next is the inverse of the sample (R134). -/
theorem nextExpected_eq (rx expected : Bool) : nextExpected rx expected = !rx := by
  cases rx <;> cases expected <;> rfl

/-- The bit that BR.LONG emits, from the sample and the polarity (R134). -/
theorem brBit_eq (rx : Bool) (b : Block) : brBit rx b = (!rx ^^ b.sess.pol) := by
  rw [brBit, nextExpected_eq]

/-- A run of ones below the threshold counts without a wrap. -/
theorem run_succ_toNat {run threshold : Byte} (h : run < threshold) : (run + 1).toNat = run.toNat + 1 := by
  have := threshold.isLt
  rw [BitVec.lt_def] at h
  rw [BitVec.toNat_add]
  simp
  omega

/-- A turn of the block counts a header, a frame of one family, or nothing (R62). -/
theorem BlockMove.cnt_cases {p : Params} {rx : Bool} {now : Micros} {b t : Block} (h : BlockMove p rx now b t) :
    t.cnt = b.cnt ∨
    (b.state = .receiving ∧ b.recov.ph = .waitLong ∧ p.longDelayUs ≤ (now - b.recov.tRef).toNat ∧
      (!rx ^^ b.sess.pol) = true ∧ b.recov.saw0 = false ∧ b.recov.run.toNat + 1 = p.headerThreshold.toNat ∧
      t.state = .receiving ∧ t.recov.run = p.headerThreshold ∧
      t.cnt = { b.cnt with headers := b.cnt.headers + 1 }) ∨
    (b.state = .decoding ∧ b.frame.target = .short ∧ t.state = .done ∧ t.result.kind = .thermoHygro ∧
      t.cnt = { b.cnt with short := b.cnt.short + 1 }) ∨
    (b.state = .decoding ∧ b.frame.target = .long ∧ t.state = .done ∧ t.result.kind = .weatherStation ∧
      t.cnt = { b.cnt with long := b.cnt.long + 1 }) := by
  cases h with
  | headerFound hs hp hd hx h0 hr hn =>
    have hrun : b.recov.run.toNat + 1 = p.headerThreshold.toNat := by rw [← hn, run_succ_toNat hr]
    exact .inr (.inl ⟨hs, hp, of_decide_eq_true hd, brBit_eq rx b ▸ hx, h0, hrun, hs, hn, rfl⟩)
  | acceptShort hs ht => exact .inr (.inr (.inl ⟨hs, ht, rfl, rfl, rfl⟩))
  | acceptLong hs ht => exact .inr (.inr (.inr ⟨hs, ht, rfl, rfl, rfl⟩))
  | _ => exact .inl rfl

/-- Settles O48: of the changes, only a turn of the block and the reset write the live counters. -/
theorem countersCountOnlyTheirEvents : Obligations.CountersCountOnlyTheirEvents := by
  intro s t hr h
  obtain ⟨-, hc⟩ := step_blockChange hr h
  generalize t.blk = b at hc ⊢
  cases hc with
  | reset => exact .inr (.inl rfl)
  | turn rx _ he hm =>
    obtain hsame | hcount := hm.cnt_cases
    · exact .inl hsame
    · exact .inr (.inr ⟨rx, he, hcount⟩)
  | _ => exact .inl rfl

/-! ### Readings -/

/-- Byte `k` of a packed word. -/
theorem packWord_byte (a b c d : Byte) (k : Fin 4) :
    (packWord a b c d).extractLsb' (8 * k.val) 8 = [a, b, c, d].getD k.val 0 := by
  apply BitVec.eq_of_getLsbD_eq
  intro i hi
  rw [BitVec.getLsbD_extractLsb', packWord_getLsbD _ _ _ _ _ (by omega)]
  simp [hi, show (8 * k.val + i) / 8 = k.val by omega, show (8 * k.val + i) % 8 = i by omega]

/-- RES_LONG0 to RES_LONG3 of a long reading, by number: four payload bytes each (R43, R225). -/
theorem readReg_longReg {b : Block} {cnt : Counters} {pl : Vector Byte 14} (h : b.result = longReading cnt pl)
    (q : Fin 4) : readReg (longReg q) b =
      packWord (pl.toList.getD (4 * q.val) 0) (pl.toList.getD (4 * q.val + 1) 0) (pl.toList.getD (4 * q.val + 2) 0)
        (pl.toList.getD (4 * q.val + 3) 0) := by
  match q with
  | 0 | 1 | 2 | 3 => simp [longReg, readReg, h, List.getD_eq_getElem?_getD]

/-- A long reading's register `j / 4` holds payload byte `j` at byte `j % 4` (R43, R225). -/
theorem longReading_byte {b : Block} {cnt : Counters} {pl : Vector Byte 14} (h : b.result = longReading cnt pl)
    (j : Fin 14) : (readReg (longReg ⟨j.val / 4, by omega⟩) b).extractLsb' (8 * (j.val % 4)) 8 = pl[j] := by
  have hpick : ∀ (f : Nat → Byte) (k : Fin 4), [f 0, f 1, f 2, f 3].getD k.val 0 = f k.val := fun f k =>
    match k with | 0 | 1 | 2 | 3 => rfl
  calc (readReg (longReg ⟨j.val / 4, by omega⟩) b).extractLsb' (8 * (j.val % 4)) 8
      = pl.toList.getD (4 * (j.val / 4) + j.val % 4) 0 := by
        rw [readReg_longReg h, packWord_byte _ _ _ _ ⟨j.val % 4, Nat.mod_lt _ (by decide)⟩]
        exact hpick (fun i => pl.toList.getD (4 * (j.val / 4) + i) 0) ⟨j.val % 4, Nat.mod_lt _ (by decide)⟩
    _ = pl[j] := by
        rw [Nat.div_add_mod]
        simp [List.getD_eq_getElem?_getD]

/-- A register is 0 where the result is confined to the registers of another kind (R40 to R43). -/
theorem Result.confined_iff (r : Result) :
    r.confined = true ↔
      (r.kind ≠ .thermoHygro → r.kind ≠ .weatherStation → r.seq = 0) ∧
      (r.kind ≠ .thermoHygro → r.short0 = 0 ∧ r.short1 = 0) ∧
      (r.kind ≠ .weatherStation → r.long0 = 0 ∧ r.long1 = 0 ∧ r.long2 = 0 ∧ r.long3 = 0) := by
  unfold Result.confined
  cases r.kind <;> simp [ResultKind.isReading, and_assoc]

/-- Where a thermo-hygrometer reading is shown, its channel and humidity are in range (R69). -/
theorem Block.ReadingSound.short_range {p : Params} {b : Block} (h : b.ReadingSound p)
    (hk : b.result.kind = .thermoHygro) :
    1 ≤ (channelField (readReg .resShort0 b)).toNat ∧ (channelField (readReg .resShort0 b)).toNat ≤ 8 ∧
      (humidityField (readReg .resShort1 b)).toNat ≤ 100 := by
  have hr := h.inRange
  simp only [Result.inRange, hk, bne_self_eq_false, Bool.false_or, Bool.and_eq_true, decide_eq_true_eq] at hr
  exact ⟨hr.1.1, hr.1.2, hr.2⟩

/-- Where a thermo-hygrometer reading is shown, its frame stands in RawFrame and passed its checks (R69, R200). -/
theorem Block.ReadingSound.short_frame {p : Params} {b : Block} (h : b.ReadingSound p)
    (hk : b.result.kind = .thermoHygro) :
    b.state = .done ∧ b.frame.target = .short ∧ b.frame.raw[1] = 0x45 ∧
      checksumShort p.chkMaskSeed (checkedBytes b.frame.raw) = b.frame.raw[6] ∧
      readReg .resShort0 b = sdWord0 b.frame.raw ∧ readReg .resShort1 b = sdWord1 b.frame.raw := by
  obtain ⟨hs, ht, hpass, hres⟩ := ((Block.readingEarned_iff p b).1 h.earned).1 hk
  obtain ⟨hsig, hsum, -⟩ := (shortFramePasses_iff p _).1 hpass
  exact ⟨hs, ht, hsig, hsum, congrArg Result.short0 hres, congrArg Result.short1 hres⟩

/-- Where a weather-station reading is shown, its frame stands in RawFrame and passed the CRC (R69, R225). -/
theorem Block.ReadingSound.long_frame {p : Params} {b : Block} (h : b.ReadingSound p)
    (hk : b.result.kind = .weatherStation) :
    b.state = .done ∧ b.frame.target = .long ∧ b.frame.raw[1] = p.longSig ∧
      payloadCrc p.crcTable (payload b.frame.raw) = (payload b.frame.raw)[13] ∧
      ∀ j : Fin 14, (readReg (longReg ⟨j.val / 4, by omega⟩) b).extractLsb' (8 * (j.val % 4)) 8 =
        (payload b.frame.raw)[j] := by
  obtain ⟨hs, ht, hpass, hres⟩ := ((Block.readingEarned_iff p b).1 h.earned).2 hk
  exact ⟨hs, ht, h.longSig hk, (longFramePasses_iff p _).1 hpass, longReading_byte hres⟩

/-- The block that the host sees after a step from outside reset shows whole results only. -/
theorem readingSound_held {s t : State} (hr : s.rst = false) (h : step s = .next t) :
    t.held.blk.ReadingSound Config.params := by
  obtain ⟨hl, hc⟩ := step_blockChange hr h
  cases ht : t.rst with
  | false => rw [State.held_of_not_rst ht]; exact hc.readingSound hl
  | true => rw [State.held_blk_of_rst ht]; exact BlockChange.reset.readingSound hl

/-- While `rst` is 1 no result is shown, so a block seen with a result is the block itself. -/
theorem State.held_of_kind_ne_none {s : State} (h : s.held.blk.result.kind ≠ .none) : s.held = s := by
  cases hr : s.rst with
  | false => exact State.held_of_not_rst hr
  | true => rw [State.held_blk_of_rst hr] at h; exact absurd rfl h

/-- A new thermo-hygrometer reading is that of the frame in DECODING, with its checks passed (R190, R197, R199). -/
theorem BlockChange.short_reading {s : State} {t : Block} (h : BlockChange s t) (hk : t.result.kind = .thermoHygro) :
    t.result = s.blk.result ∨
    (s.blk.state = .decoding ∧ s.blk.frame.target = .short ∧ s.blk.sess.accShort = true ∧
      s.blk.frame.raw[1] = 0x45 ∧
      checksumShort Config.params.chkMaskSeed (checkedBytes s.blk.frame.raw) = s.blk.frame.raw[6] ∧
      s.blk.frame.raw[5].toNat ≤ 100) := by
  obtain hsame | hr | ⟨-, hr | ⟨c, hr⟩⟩ | ⟨-, hs, ht, ha, hpass⟩ | ⟨rfl, -⟩ := h.result_cases
  · exact .inl hsame
  · exact absurd (hr ▸ hk) (by decide)
  · exact absurd (hr ▸ hk) (by decide)
  · exact absurd (hr ▸ hk) nofun
  · obtain ⟨hsig, hsum, hhum⟩ := (shortFramePasses_iff _ _).1 hpass
    exact .inr ⟨hs, ht, ha, hsig, hsum, hhum⟩
  · exact absurd hk nofun

/-- A new weather-station reading is that of the frame in DECODING, with its CRC passed (R223, R224). -/
theorem BlockChange.long_reading {s : State} {t : Block} (h : BlockChange s t) (hk : t.result.kind = .weatherStation) :
    t.result = s.blk.result ∨
    (s.blk.state = .decoding ∧ s.blk.frame.target = .long ∧
      payloadCrc Config.params.crcTable (payload s.blk.frame.raw) = (payload s.blk.frame.raw)[13]) := by
  obtain hsame | hr | ⟨-, hr | ⟨c, hr⟩⟩ | ⟨rfl, -⟩ | ⟨-, hs, ht, hpass⟩ := h.result_cases
  · exact .inl hsame
  · exact absurd (hr ▸ hk) (by decide)
  · exact absurd (hr ▸ hk) (by decide)
  · exact absurd (hr ▸ hk) nofun
  · exact absurd hk nofun
  · exact .inr ⟨hs, ht, (longFramePasses_iff _ _).1 hpass⟩

/-- Settles O55: what is new comes from a passed check, and what is shown is sound. -/
theorem readingsAreWhole : Obligations.ReadingsAreWhole := by
  intro s t hr h
  obtain ⟨-, hc⟩ := step_blockChange hr h
  have hsound := readingSound_held hr h
  obtain ⟨hseq, hshort, hlong⟩ := (Result.confined_iff _).1 hsound.confined
  refine ⟨hc.short_reading, hc.long_reading, fun hk => ?_, fun hk => ?_, fun hne => ?_, fun hne => ?_, fun hne => ?_,
    hsound.short_range, hsound.kind_ne⟩
  · have hheld : t.held = t := State.held_of_kind_ne_none (by simp [hk])
    have hframe := hsound.short_frame hk
    rw [hheld] at hframe
    rw [State.window, State.window, hheld]
    exact hframe
  · have hheld : t.held = t := State.held_of_kind_ne_none (by simp [hk])
    have hframe := hsound.long_frame hk
    rw [hheld] at hframe
    simp only [State.window, hheld]
    exact hframe
  · by_contra hk
    obtain ⟨h0, h1⟩ := hshort hk
    exact hne.elim (· h0) (· h1)
  · by_contra hk
    obtain ⟨h0, h1, h2, h3⟩ := hlong hk
    obtain hn | hn | hn | hn := hne
    exacts [hn h0, hn h1, hn h2, hn h3]
  · by_contra hk
    obtain ⟨hkshort, hklong⟩ := not_or.1 hk
    exact hne (hseq hkshort hklong)

/-! ### The parts of the invariant -/

/-- The part of `Block.Inv` about the run of ones (R53, R54, R152). -/
structure Recovery.Inv (p : Params) (r : Recovery) : Prop where
  run_le : r.run ≤ p.headerThreshold
  inPre_eq : r.inPre = decide (r.run < p.headerThreshold)
  run_of_saw0 : r.saw0 = true → r.run = p.headerThreshold

/-- The part of `Block.Inv` about RawFrame (R58, R61, R172). -/
structure RawFrame.Inv (p : Params) (f : RawFrame) : Prop where
  filled_le : f.filled.toNat ≤ f.target.bytes
  famDecided_eq : f.famDecided = decide (2 ≤ f.filled.toNat)
  long_target : f.target = .long → f.famDecided = true ∧ f.raw[1] = p.longSig
  unfilled_zero : ∀ i : Fin 16, f.filled.toNat ≤ i.val → f.raw[i] = 0

/-- The part of `Block.Inv` about what a session and an attempt have in their controller state (R55, R56, R69, R172,
R220, R255, R282). -/
structure Block.CtlInv (p : Params) (b : Block) : Prop where
  empty_of_not_saw0 : b.recov.saw0 = false → b.frame.filled = 0 ∧ b.frame.nb = 0 ∧ b.frame.acc = 0
  room : b.state = .receiving → b.frame.filled.toNat < b.frame.target.bytes
  full : b.state = .decoding → b.frame.filled.toNat = b.frame.target.bytes ∧ b.frame.nb = 0 ∧ b.recov.saw0 = true
  session_of_busy : b.busy = true → b.sess.cfgValid = true ∧ (b.sess.accShort = true ∨ b.sess.accLong = true)
  no_err : b.inAttempt = true → b.recov.err = false
  /-- Within an attempt the decided target is 16 exactly with the long signature and a session that accepts it. -/
  target_iff : b.inAttempt = true → b.frame.famDecided = true →
    (b.frame.target = .long ↔ b.sess.accLong = true ∧ b.frame.raw[1] = p.longSig)

/-- The part of `Block.Inv` about which results a controller state shows (R39, R105, R263). -/
structure Block.ResultInv (b : Block) : Prop where
  result_none : b.state ≠ .done → b.result = Result.none
  kind_of_done : b.state = .done →
    b.result.kind = .thermoHygro ∨ b.result.kind = .weatherStation ∨ b.result.kind = .timeout ∨ b.result.kind = .misuse
  cause_iff : b.result.kind = .misuse ↔ b.result.cause ≠ .none

/-- The part of `Block.Inv` about the stored instants (R32, R132, R133). -/
structure Block.TimeInv (p : Params) (now : Micros) (b : Block) : Prop where
  tCall_le : b.tCall ≤ now
  tRef_le : b.recov.tRef ≤ now
  delay_due : ∀ d, pendingDelay p b = some d → (now - b.recov.tRef).toNat ≤ d

/-- The parts of the invariant. Each of them reads few fields, so that a move keeps most of them as they are. -/
structure Block.InvParts (p : Params) (now : Micros) (b : Block) : Prop where
  recov : b.recov.Inv p
  frame : b.frame.Inv p
  ctl : b.CtlInv p
  result : b.ResultInv
  sound : b.ReadingSound p
  time : b.TimeInv p now

/-- The parts make up the invariant. -/
theorem Block.inv_of_parts {p : Params} {now : Micros} {b : Block} (h : b.InvParts p now) : b.Inv p now where
  lawful := by
    refine (Block.lawful_iff p b).2 ⟨h.frame.filled_le, h.ctl.room, (Block.targetEarned_iff p b).2 ⟨fun ht => ?_,
      fun ha hl hd hsig => ?_⟩, h.sound.kind_ne, h.sound.confined, h.sound.inRange, h.sound.earned⟩
    · obtain ⟨hd, hsig⟩ := h.frame.long_target ht
      exact ⟨hd, by simpa [h.frame.famDecided_eq] using hd, hsig, fun ha => ((h.ctl.target_iff ha hd).1 ht).1⟩
    · have hd' : b.frame.famDecided = true := hd.elim id fun h2 => by simpa [h.frame.famDecided_eq] using h2
      exact (h.ctl.target_iff ha hd').2 ⟨hl, hsig⟩
  run_le := h.recov.run_le
  inPre_eq := h.recov.inPre_eq
  run_of_saw0 := h.recov.run_of_saw0
  empty_of_not_saw0 := h.ctl.empty_of_not_saw0
  room := h.ctl.room
  full := h.ctl.full
  famDecided_eq := h.frame.famDecided_eq
  long_target ht := by
    obtain ⟨hd, hsig⟩ := h.frame.long_target ht
    exact ⟨hd, hsig, fun ha => ((h.ctl.target_iff ha hd).1 ht).1⟩
  unfilled_zero := h.frame.unfilled_zero
  result_of_busy hb := h.result.result_none fun hs => by simp [Block.busy_iff, hs] at hb
  result_of_idle hs := h.result.result_none fun hd => by simp [hs] at hd
  kind_of_done := h.result.kind_of_done
  cause_iff := h.result.cause_iff
  session_of_busy := h.ctl.session_of_busy
  no_err := h.ctl.no_err
  tCall_le := h.time.tCall_le
  tRef_le := h.time.tRef_le
  delay_due := h.time.delay_due

/-- The invariant taken apart. -/
theorem Block.Inv.parts {p : Params} {now : Micros} {b : Block} (h : b.Inv p now) : b.InvParts p now := by
  obtain ⟨hfilled, -, htarget, -⟩ := (Block.lawful_iff p b).1 h.lawful
  refine
    { recov := ⟨h.run_le, h.inPre_eq, h.run_of_saw0⟩
      frame := ⟨hfilled, h.famDecided_eq, fun ht => ?_, h.unfilled_zero⟩
      ctl := ⟨h.empty_of_not_saw0, h.room, h.full, h.session_of_busy, h.no_err,
        fun ha hd => ⟨fun ht => ?_, fun hl => ?_⟩⟩
      result := ⟨fun hs => ?_, h.kind_of_done, h.cause_iff⟩
      sound := Block.readingSound_of_lawful h.lawful
      time := ⟨h.tCall_le, h.tRef_le, h.delay_due⟩ }
  · obtain ⟨hd, hsig, -⟩ := h.long_target ht
    exact ⟨hd, hsig⟩
  · obtain ⟨-, hsig, hacc⟩ := h.long_target ht
    exact ⟨hacc ha, hsig⟩
  · exact ((Block.targetEarned_iff p b).1 htarget).2 ha hl.1 (.inl hd) hl.2
  · cases hb : b.busy with
    | true => exact h.result_of_busy hb
    | false => exact h.result_of_idle (((Block.not_busy_iff b).1 hb).resolve_right hs)

/-! ### What keeps each part -/

/-- The recovery state at an attempt's start (R68) has its invariant. -/
theorem Recovery.inv_fresh {p : Params} (hp : p.wf = true) (pol : Bool) : (Recovery.fresh pol).Inv p where
  run_le := Nat.zero_le _
  inPre_eq := (decide_eq_true (Params.threshold_pos hp)).symm
  run_of_saw0 := nofun

/-- The empty frame (R68) has its invariant. -/
theorem RawFrame.inv_empty (p : Params) : RawFrame.empty.Inv p where
  filled_le := by decide
  famDecided_eq := rfl
  long_target := nofun
  unfilled_zero := by decide

/-- A completed byte takes the next place, and leaves the others (R171). -/
theorem RawFrame.complete_getElem (p : Params) (a : Bool) (byte : Byte) (f : RawFrame) (i : Fin 16) :
    (f.complete p a byte).raw[i] = if f.filled.toNat = i.val then byte else f.raw[i] := by
  simp only [RawFrame.complete_raw, Fin.getElem_fin, Vector.getElem_setIfInBounds]

/-- The number of completed bytes counts without a wrap. -/
theorem RawFrame.filled_succ_toNat {f : RawFrame} (hroom : f.filled.toNat < f.target.bytes) :
    (f.filled + 1).toNat = f.filled.toNat + 1 := by
  have := f.target.bytes_le
  rw [BitVec.toNat_add]
  simp
  omega

/-- A target never decreases with a completed byte (R69). -/
theorem RawFrame.complete_target_cases (p : Params) (a : Bool) (byte : Byte) (f : RawFrame) :
    (f.complete p a byte).target = f.target ∨ (f.complete p a byte).target = .long := by
  obtain ⟨-, -, -, ht⟩ | ⟨-, -, ht⟩ := f.complete_family p a byte
  · rw [ht]; split <;> simp
  · exact .inl ht

/-- Where the long target comes from: the second byte decides it, or it was decided before (R172). -/
theorem RawFrame.Inv.complete_family {p : Params} {f : RawFrame} (h : f.Inv p)
    (hroom : f.filled.toNat < f.target.bytes) (a : Bool) (byte : Byte) :
    (f.filled.toNat = 1 ∧ f.famDecided = false ∧ (f.complete p a byte).famDecided = true ∧
      ((f.complete p a byte).target = .long ↔ a = true ∧ (f.complete p a byte).raw[1] = p.longSig)) ∨
    (f.filled.toNat ≠ 1 ∧ (f.complete p a byte).famDecided = f.famDecided ∧
      (f.complete p a byte).target = f.target ∧ (f.complete p a byte).raw[1] = f.raw[1]) := by
  have hsucc := f.filled_succ_toNat hroom
  have hdec := h.famDecided_eq
  obtain ⟨hfill, hd, hd', ht⟩ | ⟨hn, hd', ht⟩ := f.complete_family p a byte
  · have h1 : f.filled.toNat = 1 := by
      rw [hfill] at hsucc
      simpa using hsucc.symm
    have hshort : f.target ≠ .long := fun hl => absurd (h.long_target hl).1 (by simp [hd])
    refine .inl ⟨h1, hd, hd', ?_⟩
    rw [ht, RawFrame.complete_raw]
    split <;> simp_all
  · have h1 : f.filled.toNat ≠ 1 := fun h1 =>
      hn ⟨BitVec.eq_of_toNat_eq (by rw [hsucc, h1]; rfl), by simpa [h1] using hdec⟩
    exact .inr ⟨h1, hd', ht, (f.complete_getElem p a byte 1).trans (if_neg h1)⟩

/-- A completed byte within the target keeps the invariant of RawFrame. -/
theorem RawFrame.Inv.complete {p : Params} {f : RawFrame} (h : f.Inv p) (hroom : f.filled.toNat < f.target.bytes)
    (a : Bool) (byte : Byte) : (f.complete p a byte).Inv p := by
  have hsucc : (f.complete p a byte).filled.toNat = f.filled.toNat + 1 := by
    rw [RawFrame.complete_filled, f.filled_succ_toNat hroom]
  have hfamily := h.complete_family hroom a byte
  refine ⟨?_, ?_, fun ht => ?_, fun i hi => ?_⟩
  · have hle := f.target.bytes_le
    obtain ht | ht := f.complete_target_cases p a byte <;> rw [hsucc, ht]
    · exact hroom
    · exact hroom.trans_le hle
  · rw [hsucc]
    obtain ⟨h1, -, hd, -⟩ | ⟨h1, hd, -⟩ := hfamily <;> rw [hd]
    · simp [h1]
    · rw [h.famDecided_eq, decide_eq_decide]
      omega
  · obtain ⟨-, -, hd, htarget⟩ | ⟨-, hd, htarget, hsig⟩ := hfamily
    · exact ⟨hd, (htarget.1 ht).2⟩
    · rw [hd, hsig]
      exact h.long_target (htarget ▸ ht)
  · rw [hsucc] at hi
    rw [f.complete_getElem, if_neg (by omega)]
    exact h.unfilled_zero i (by omega)

/-- Outside an attempt the controller part asks only for the empty frame and the session of a request. -/
theorem Block.CtlInv.of_not_inAttempt {p : Params} {b : Block} (ha : b.inAttempt = false)
    (hempty : b.recov.saw0 = false → b.frame.filled = 0 ∧ b.frame.nb = 0 ∧ b.frame.acc = 0)
    (hsess : b.busy = true → b.sess.cfgValid = true ∧ (b.sess.accShort = true ∨ b.sess.accLong = true)) :
    b.CtlInv p where
  empty_of_not_saw0 := hempty
  room hs := by simp [b.inAttempt_iff.2 (.inl hs)] at ha
  full hs := by simp [b.inAttempt_iff.2 (.inr hs)] at ha
  session_of_busy := hsess
  no_err h := by simp [h] at ha
  target_iff h := by simp [h] at ha

/-- A request that leaves its attempt, for SEARCHING or DONE, keeps the controller part. -/
theorem Block.CtlInv.leave {p : Params} {b t : Block} (h : b.CtlInv p) (hb : b.busy = true) (ha : t.inAttempt = false)
    (hsess : t.sess = b.sess) (hsaw : t.recov.saw0 = b.recov.saw0) (hf : t.frame = b.frame) : t.CtlInv p :=
  .of_not_inAttempt ha (by rw [hsaw, hf]; exact h.empty_of_not_saw0) fun _ => by
    rw [hsess]; exact h.session_of_busy hb

/-- A move within RECEIVING that leaves RawFrame keeps the controller part. -/
theorem Block.CtlInv.stay_receiving {p : Params} {b t : Block} (h : b.CtlInv p) (hs : b.state = .receiving)
    (hst : t.state = .receiving) (hsess : t.sess = b.sess) (hf : t.frame = b.frame)
    (herr : t.recov.err = b.recov.err) (hsaw : b.recov.saw0 = true → t.recov.saw0 = true) : t.CtlInv p := by
  have hattempt : b.inAttempt = true := b.inAttempt_iff.2 (.inl hs)
  refine
    { empty_of_not_saw0 := fun h0 => ?_
      room := fun _ => hf ▸ h.room hs
      full := fun hd => by simp [hst] at hd
      session_of_busy := fun _ => hsess ▸ h.session_of_busy (b.busy_iff.2 (.inr (.inl hs)))
      no_err := fun _ => herr ▸ h.no_err hattempt
      target_iff := fun _ => hf ▸ hsess ▸ h.target_iff hattempt }
  rw [hf]
  exact h.empty_of_not_saw0 (by cases hb : b.recov.saw0 with
    | false => rfl
    | true => exact absurd (hsaw hb) (by simp [h0]))

/-- Outside DONE with the result clear, the result part holds. -/
theorem Block.ResultInv.of_clear {b : Block} (hs : b.state ≠ .done) (hr : b.result = Result.none) : b.ResultInv where
  result_none _ := hr
  kind_of_done h := absurd h hs
  cause_iff := by simp [hr, Result.none]

/-- A turn within a request that does not end it keeps the result part. -/
theorem Block.ResultInv.of_busy {b t : Block} (h : b.ResultInv) (hb : b.busy = true) (hs : t.state ≠ .done)
    (hr : t.result = b.result) : t.ResultInv :=
  .of_clear hs (hr.trans (h.result_none fun hd => by simp [Block.busy_iff, hd] at hb))

/-- In WAIT_LEVEL, and outside RECEIVING, no delay is running. -/
theorem pendingDelay_eq_none {p : Params} {b : Block} (h : b.state ≠ .receiving ∨ b.recov.ph = .waitLevel) :
    pendingDelay p b = none := by
  unfold pendingDelay
  cases hs : b.state <;> cases hp : b.recov.ph <;> simp_all

/-- Where no delay is running, the stored instants alone matter. -/
theorem Block.TimeInv.no_delay {p : Params} {now : Micros} {b t : Block} (h : b.TimeInv p now)
    (hd : t.state ≠ .receiving ∨ t.recov.ph = .waitLevel) (hc : t.tCall = b.tCall) (hr : t.recov.tRef = b.recov.tRef) :
    t.TimeInv p now where
  tCall_le := hc ▸ h.tCall_le
  tRef_le := hr ▸ h.tRef_le
  delay_due d hp := by simp [pendingDelay_eq_none hd] at hp

/-- A delay that starts now has not run over. -/
theorem Block.TimeInv.delay_starts {p : Params} {now : Micros} {b t : Block} (h : b.TimeInv p now)
    (hc : t.tCall = b.tCall) (hr : t.recov.tRef = now) : t.TimeInv p now where
  tCall_le := hc ▸ h.tCall_le
  tRef_le := hr ▸ BitVec.le_refl _
  delay_due _ _ := by simp [hr]

/-! ### Every turn of the block keeps the invariant -/

/-- One more one below the threshold keeps the recovery part, the preamble flag included (R53, R150). -/
theorem Recovery.Inv.count {p : Params} {r t : Recovery} (h0 : r.saw0 = false)
    (hlt : r.run < p.headerThreshold) (hrun : t.run = r.run + 1) (hsaw : t.saw0 = r.saw0)
    (hpre : t.inPre = decide (r.run + 1 ≠ p.headerThreshold)) : t.Inv p := by
  have hsucc := run_succ_toNat hlt
  have hle : (r.run + 1).toNat ≤ p.headerThreshold.toNat := by rw [hsucc]; exact hlt
  refine ⟨hrun ▸ hle, ?_, fun h1 => absurd (hsaw.symm.trans h1) (by simp [h0])⟩
  rw [hpre, hrun, decide_eq_decide, BitVec.lt_def, Ne, ← BitVec.toNat_inj]
  omega

/-- Turning the engine to its next wait keeps the recovery part. -/
theorem Recovery.Inv.congr {p : Params} {r t : Recovery} (h : r.Inv p) (hrun : t.run = r.run)
    (hpre : t.inPre = r.inPre) (hsaw : t.saw0 = r.saw0) : t.Inv p where
  run_le := hrun ▸ h.run_le
  inPre_eq := hpre ▸ hrun ▸ h.inPre_eq
  run_of_saw0 := hsaw ▸ hrun ▸ h.run_of_saw0

section
variable {p : Params} {now : Micros} {b : Block}

/-- An abort keeps the invariant, whatever the engine wrote but for the run and the stored instant (R256). -/
theorem Block.InvParts.abort (h : b.InvParts p now) (hb : b.busy = true) {r : Recovery} (hrun : r.run = b.recov.run)
    (hpre : r.inPre = b.recov.inPre) (hsaw : r.saw0 = b.recov.saw0) (href : r.tRef = b.recov.tRef)
    {k : AttemptOutcome} (hsound : (({ b with recov := r } : Block).abort k).ReadingSound p) :
    (({ b with recov := r } : Block).abort k).InvParts p now where
  recov := h.recov.congr hrun hpre hsaw
  frame := h.frame
  ctl := h.ctl.leave hb rfl rfl hsaw rfl
  result := h.result.of_busy hb nofun rfl
  sound := hsound
  time := h.time.no_delay (.inl nofun) rfl href

/-- The end of a request keeps the invariant, with a time-out or a reading (R258). -/
theorem Block.InvParts.finish (h : b.InvParts p now) (hb : b.busy = true) {c : Counters} {r : Result}
    (hk : r.kind = .thermoHygro ∨ r.kind = .weatherStation ∨ r.kind = .timeout) (hc : r.cause = .none)
    (hsound : (({ b with cnt := c } : Block).finish r).ReadingSound p) :
    (({ b with cnt := c } : Block).finish r).InvParts p now where
  recov := h.recov
  frame := h.frame
  ctl := h.ctl.leave hb rfl rfl rfl rfl
  result :=
    { result_none := fun hd => absurd rfl hd
      kind_of_done := fun _ => hk.imp_right (Or.imp_right .inl)
      cause_iff := by obtain hk | hk | hk := hk <;> simp [hk, hc] }
  sound := hsound
  time := h.time.no_delay (.inl nofun) rfl rfl

/-- A move within RECEIVING that leaves RawFrame keeps the invariant, with what the engine wrote. -/
theorem Block.InvParts.receive (h : b.InvParts p now) (hs : b.state = .receiving) {r : Recovery} {c : Counters}
    (hr : r.Inv p) (herr : r.err = b.recov.err) (hsaw : b.recov.saw0 = true → r.saw0 = true)
    (htime : ({ b with recov := r, cnt := c } : Block).TimeInv p now)
    (hsound : ({ b with recov := r, cnt := c } : Block).ReadingSound p) :
    ({ b with recov := r, cnt := c } : Block).InvParts p now where
  recov := hr
  frame := h.frame
  ctl := h.ctl.stay_receiving hs hs rfl rfl herr hsaw
  result := h.result.of_busy (b.busy_iff.2 (.inr (.inl hs))) (by simp [hs]) rfl
  sound := hsound
  time := htime

/-- A data bit keeps the invariant, with what the frame accumulator wrote (R170 to R173). -/
theorem Block.InvParts.data (h : b.InvParts p now) (hs : b.state = .receiving) (h0 : b.recov.saw0 = true) {rx : Bool}
    {f : RawFrame} {st : CtlState} (hf : f.Inv p) (hst : st = .receiving ∨ st = .decoding)
    (hroom : st = .receiving → f.filled.toNat < f.target.bytes)
    (hfull : st = .decoding → f.filled.toNat = f.target.bytes ∧ f.nb = 0)
    (htarget : f.famDecided = true → (f.target = .long ↔ b.sess.accLong = true ∧ f.raw[1] = p.longSig))
    (hsound : ({ brTurn rx b with frame := f, state := st } : Block).ReadingSound p) :
    ({ brTurn rx b with frame := f, state := st } : Block).InvParts p now := by
  have hb : b.busy = true := b.busy_iff.2 (.inr (.inl hs))
  exact
    { recov := h.recov.congr rfl rfl rfl
      frame := hf
      ctl :=
        { empty_of_not_saw0 := fun h1 => absurd (h0.symm.trans h1) (by decide)
          room := hroom
          full := fun hd => ⟨(hfull hd).1, (hfull hd).2, h0⟩
          session_of_busy := fun _ => h.ctl.session_of_busy hb
          no_err := fun _ => h.ctl.no_err (b.inAttempt_iff.2 (.inl hs))
          target_iff := fun _ => htarget }
      result := h.result.of_busy hb (by obtain rfl | rfl := hst <;> nofun) rfl
      sound := hsound
      time := h.time.no_delay (.inr rfl) rfl rfl }

/-- The attempt start keeps the invariant (R68). -/
theorem Block.InvParts.attemptStart (h : b.InvParts p now) (hp : p.wf = true) (hb : b.busy = true)
    (hsound : b.attemptStart.ReadingSound p) : b.attemptStart.InvParts p now where
  recov := Recovery.inv_fresh hp _
  frame := RawFrame.inv_empty p
  ctl :=
    { empty_of_not_saw0 := fun _ => ⟨rfl, rfl, rfl⟩
      room := fun _ => by rw [Block.attemptStart_frame]; decide
      full := nofun
      session_of_busy := fun _ => h.ctl.session_of_busy hb
      no_err := fun _ => rfl
      target_iff := nofun }
  result := h.result.of_busy hb nofun rfl
  sound := hsound
  time := ⟨h.time.tCall_le, Nat.zero_le _, nofun⟩

/-- A completed byte of an attempt keeps the tie of the decided target to the signature and the session (R172). -/
theorem Block.InvParts.complete_target_iff (h : b.InvParts p now) (hs : b.state = .receiving)
    (hroom : b.frame.filled.toNat < b.frame.target.bytes) (byte : Byte) :
    (b.frame.complete p b.sess.accLong byte).famDecided = true →
      ((b.frame.complete p b.sess.accLong byte).target = .long ↔
        b.sess.accLong = true ∧ (b.frame.complete p b.sess.accLong byte).raw[1] = p.longSig) := by
  intro hd
  obtain ⟨-, -, -, htarget⟩ | ⟨-, hd', htarget, hsig⟩ := h.frame.complete_family hroom b.sess.accLong byte
  · exact htarget
  · rw [htarget, hsig]
    exact h.ctl.target_iff (b.inAttempt_iff.2 (.inl hs)) (hd' ▸ hd)

/-- A turn of the block keeps the invariant, if what it shows is sound. -/
theorem BlockMove.invParts {rx : Bool} {t : Block} (hp : p.wf = true) (h : b.InvParts p now) (hsound : t.ReadingSound p)
    (hm : BlockMove p rx now b t) : t.InvParts p now := by
  have hbusy := b.busy_iff.2
  cases hm with
  | stay => exact h
  | timeout hs => exact h.finish (hbusy (.inl hs)) (.inr (.inr rfl)) rfl hsound
  | attempt hs => exact h.attemptStart hp (hbusy (.inl hs)) hsound
  | poll hs | stable hs =>
    exact h.receive hs (h.recov.congr rfl rfl rfl) rfl id (h.time.delay_starts rfl rfl) hsound
  | violation hs =>
    exact h.abort (r := { b.recov with err := true }) (hbusy (.inr (.inl hs))) rfl rfl rfl rfl hsound
  | earlyZero hs => exact h.abort (r := (brTurn rx b).recov) (hbusy (.inr (.inl hs))) rfl rfl rfl rfl hsound
  | absorbedOne hs =>
    exact h.receive hs (h.recov.congr rfl rfl rfl) rfl id (h.time.no_delay (.inr rfl) rfl rfl) hsound
  | countedOne hs _ _ _ h0 hlt hn =>
    have hpre : b.recov.inPre = decide (b.recov.run + 1 ≠ p.headerThreshold) :=
      h.recov.inPre_eq.trans ((decide_eq_true hlt).trans (decide_eq_true hn).symm)
    exact h.receive hs (.count h0 hlt rfl rfl hpre) rfl id (h.time.no_delay (.inr rfl) rfl rfl) hsound
  | headerFound hs _ _ _ h0 hlt hn =>
    have hpre : false = decide (b.recov.run + 1 ≠ p.headerThreshold) := (decide_eq_false (not_not.2 hn)).symm
    exact h.receive hs (.count h0 hlt rfl rfl hpre) rfl id (h.time.no_delay (.inr rfl) rfl rfl) hsound
  | sync hs _ _ _ _ hr =>
    exact h.receive hs ⟨h.recov.run_le, h.recov.inPre_eq, fun _ => hr⟩ rfl (fun _ => rfl)
      (h.time.no_delay (.inr rfl) rfl rfl) hsound
  | shift hs _ _ h0 _ hroom =>
    have hframe := h.frame
    exact h.data hs h0 ⟨hframe.filled_le, hframe.famDecided_eq, hframe.long_target, hframe.unfilled_zero⟩ (.inl hs)
      (fun _ => hroom) (fun hd => by simp [hs] at hd) (h.ctl.target_iff (b.inAttempt_iff.2 (.inl hs))) hsound
  | byte hs _ _ h0 _ hroom =>
    have hframe := h.frame.complete hroom b.sess.accLong (shiftIn b.frame.acc (brBit rx b))
    have hfilled := hframe.filled_le
    rw [RawFrame.complete_filled] at hfilled
    refine h.data hs h0 hframe (by split <;> simp) (fun hst => ?_) (fun hst => ?_)
      (h.complete_target_iff hs hroom _) hsound
    · rw [RawFrame.complete_filled]
      exact lt_of_le_of_ne hfilled fun hfull => by rw [if_pos hfull] at hst; nomatch hst
    · rw [RawFrame.complete_filled, RawFrame.complete_nb]
      refine ⟨by_contra fun hfull => ?_, rfl⟩
      rw [if_neg hfull] at hst
      nomatch hst
  | reject _ hs => exact h.abort (hbusy (.inr (.inr hs))) rfl rfl rfl rfl hsound
  | acceptShort hs => exact h.finish (hbusy (.inr (.inr hs))) (.inl rfl) rfl hsound
  | acceptLong hs => exact h.finish (hbusy (.inr (.inr hs))) (.inr (.inl rfl)) rfl hsound

end

/-! ### Every step keeps the invariant -/

/-- The reset block has the invariant at every time (R66). -/
theorem Block.inv_reset {p : Params} (hp : p.wf = true) (now : Micros) : Block.reset.Inv p now :=
  Block.inv_of_parts
    { recov := Recovery.inv_fresh hp false
      frame := RawFrame.inv_empty p
      ctl := .of_not_inAttempt rfl (fun _ => ⟨rfl, rfl, rfl⟩) nofun
      result := .of_clear nofun rfl
      sound := .of_no_reading rfl (.inl rfl)
      time := ⟨Nat.zero_le _, Nat.zero_le _, nofun⟩ }

/-- An effect outside a request keeps the invariant, where it leaves RecoveryState and RawFrame. -/
theorem Block.InvParts.outside_request {p : Params} {now : Micros} {b t : Block} (h : b.InvParts p now)
    (ht : t.inAttempt = false) (hr : t.recov = b.recov) (hf : t.frame = b.frame) (hc : t.tCall ≤ now)
    (hsess : t.busy = true → t.sess.cfgValid = true ∧ (t.sess.accShort = true ∨ t.sess.accLong = true))
    (hresult : t.ResultInv) (hsound : t.ReadingSound p) : t.InvParts p now where
  recov := hr ▸ h.recov
  frame := hf ▸ h.frame
  ctl := .of_not_inAttempt ht (hr ▸ hf ▸ h.ctl.empty_of_not_saw0) hsess
  result := hresult
  sound := hsound
  time :=
    { tCall_le := hc
      tRef_le := hr ▸ h.time.tRef_le
      delay_due := fun d hd => by
        have hs : t.state ≠ .receiving := fun hs => by simp [t.inAttempt_iff.2 (.inl hs)] at ht
        simp [pendingDelay_eq_none (.inl hs)] at hd }

/-- No part of the invariant reads DEADLINE, CMD_REJECTED or the snapshot. -/
theorem Block.InvParts.host_fields {p : Params} {now : Micros} {b : Block} (h : b.InvParts p now) (d : Word)
    (v : Bool) (c : Counters) : ({ b with deadline := d, cmdRejected := v, snap := c } : Block).InvParts p now where
  recov := h.recov
  frame := h.frame
  ctl :=
    { empty_of_not_saw0 := h.ctl.empty_of_not_saw0
      room := h.ctl.room
      full := h.ctl.full
      session_of_busy := h.ctl.session_of_busy
      no_err := h.ctl.no_err
      target_iff := h.ctl.target_iff }
  result := ⟨h.result.result_none, h.result.kind_of_done, h.result.cause_iff⟩
  sound := h.sound.congr rfl rfl rfl rfl
  time := ⟨h.time.tCall_le, h.time.tRef_le, h.time.delay_due⟩

/-- Outside a request the block is outside an attempt. -/
theorem Block.not_inAttempt_of_not_busy {b : Block} (h : b.busy = false) : b.inAttempt = false := by
  obtain hs | hs := (Block.not_busy_iff b).1 h <;> simp [Block.inAttempt, hs]

/-- Every change of the block outside reset keeps its invariant. -/
theorem BlockChange.inv {s : State} {t : Block} (hinv : s.blk.Inv Config.params s.now) (hc : BlockChange s t) :
    t.Inv Config.params s.now := by
  have h := hinv.parts
  have hsound := hc.readingSound hinv.lawful
  cases hc with
  | same => exact hinv
  | deadline | rejected | snapshot => exact Block.inv_of_parts (h.host_fields _ _ _)
  | session a l pol hb =>
    exact Block.inv_of_parts (h.outside_request (Block.not_inAttempt_of_not_busy hb) rfl rfl h.time.tCall_le
      (fun ht => absurd (hb.symm.trans ht) (by decide))
      ⟨h.result.result_none, h.result.kind_of_done, h.result.cause_iff⟩ hsound)
  | misuse c _ hne =>
    refine Block.inv_of_parts (h.outside_request rfl rfl rfl h.time.tCall_le nofun ?_ hsound)
    exact ⟨fun hd => absurd rfl hd, fun _ => .inr (.inr (.inr rfl)), fun _ => hne, fun _ => rfl⟩
  | request _ hv hf =>
    exact Block.inv_of_parts (h.outside_request rfl rfl rfl (BitVec.le_refl _) (fun _ => ⟨hv, hf⟩)
      (.of_clear nofun rfl) hsound)
  | turn rx _ _ hm => exact Block.inv_of_parts (hm.invParts Config.params_wf h hsound)
  | reset => exact Block.inv_reset Config.params_wf _

/-! ### Time -/

/-- Where no delay is running, the time moves to any later value. -/
theorem timeAfter_no_delay {p : Params} {t now : Micros} {b : Block} (h : pendingDelay p b = none) (ht : now ≤ t) :
    timeAfter p t now b = t := by
  unfold timeAfter
  rw [h]
  split
  · rename_i h'
    exact BitVec.le_antisymm ht h'
  · rfl

/-- Where a delay is running, the time moves as far as is asked, but not past the due instant. -/
theorem timeAfter_delay {p : Params} {t now : Micros} {b : Block} {d : Nat} (h : pendingDelay p b = some d)
    (ht : now ≤ t) :
    (timeAfter p t now b).toNat = min t.toNat (now.toNat + (d - (now - b.recov.tRef).toNat)) := by
  have hlt := t.isLt
  have hle : now.toNat ≤ t.toNat := ht
  unfold timeAfter
  rw [h]
  split
  · rename_i h'
    have : t.toNat ≤ now.toNat := h'
    omega
  · simp only
    split
    · rw [BitVec.toNat_ofNat]
      omega
    · omega

/-- A time event to no later value does nothing. -/
theorem timeAfter_of_le {p : Params} {t now : Micros} {b : Block} (h : t ≤ now) : timeAfter p t now b = now :=
  if_pos h

/-- The time never goes back (R32). -/
theorem le_timeAfter (p : Params) (t now : Micros) (b : Block) : now ≤ timeAfter p t now b := by
  by_cases h : t ≤ now
  · rw [timeAfter_of_le h]
    exact BitVec.le_refl _
  · have ht : now ≤ t := BitVec.le_of_lt (BitVec.not_le.1 h)
    cases hd : pendingDelay p b with
    | none => rwa [timeAfter_no_delay hd ht]
    | some d =>
      have hle : now.toNat ≤ t.toNat := ht
      rw [BitVec.le_def, timeAfter_delay hd ht]
      omega

/-- Time moves on without overrunning a delay that had not run over (R132, R133). -/
theorem timeAfter_le_due {p : Params} {t now : Micros} {b : Block} {d : Nat} (h : pendingDelay p b = some d)
    (hr : b.recov.tRef ≤ now) (hd : (now - b.recov.tRef).toNat ≤ d) :
    (timeAfter p t now b).toNat ≤ b.recov.tRef.toNat + d := by
  have hrle : b.recov.tRef.toNat ≤ now.toNat := hr
  rw [BitVec.toNat_sub_of_le hr] at hd
  by_cases ht : t ≤ now
  · rw [timeAfter_of_le ht]
    omega
  · rw [timeAfter_delay h (BitVec.le_of_lt (BitVec.not_le.1 ht)), BitVec.toNat_sub_of_le hr]
    omega

/-- The passing of time keeps the invariant. -/
theorem Block.Inv.timeAfter {p : Params} {now : Micros} {b : Block} (h : b.Inv p now) (t : Micros) :
    b.Inv p (timeAfter p t now b) := by
  have hle := le_timeAfter p t now b
  have hparts := h.parts
  refine Block.inv_of_parts { hparts with
    time := ⟨BitVec.le_trans h.tCall_le hle, BitVec.le_trans h.tRef_le hle, fun d hd => ?_⟩ }
  rw [BitVec.toNat_sub_of_le (BitVec.le_trans h.tRef_le hle)]
  have := timeAfter_le_due (t := t) hd h.tRef_le (h.delay_due d hd)
  omega

/-- Under the invariant, holding the reset state changes nothing. -/
theorem State.Inv.held_eq {s : State} (h : s.Inv) : s.held = s := by
  unfold State.held
  split
  · rename_i hr
    rw [← h.reset_of_rst hr]
  · rfl

/-- A step keeps the block's invariant at the time before it, whatever `rst` is. -/
theorem step_keeps_block_inv {s t : State} (hs : s.Inv) (h : step s = .next t) : t.blk.Inv Config.params s.now := by
  cases hr : s.rst with
  | false => exact (step_blockChange hr h).2.inv hs.blk
  | true => exact step_blk_of_rst h (.inl hr) ▸ Block.inv_reset Config.params_wf _

/-- Settles O52, from the changes of the block, the passing of time and the reset. -/
theorem stepKeepsInvariant : Obligations.StepKeepsInvariant := by
  intro s t hs h
  refine ⟨fun ht => step_blk_of_rst h (.inr ht), ?_⟩
  obtain hnow | ⟨u, hnow, hblk⟩ := step_now h
  · rw [hnow]
    exact step_keeps_block_inv hs h
  · rw [hs.held_eq] at hnow hblk
    rw [hnow, hblk]
    exact hs.blk.timeAfter u

/-- Settles O29: `timeAfter` case by case. -/
theorem timeStopsAtDueInstant : Obligations.TimeStopsAtDueInstant := by
  intro s t hr hl he
  have hstep : step s = .next { s.consume with now := timeAfter Config.params t s.now s.blk } := by
    rw [step_of_lawful_running hr hl, he]
    simp only [serve, State.consume_now, State.consume_blk]
  refine ⟨_, hstep, rfl, le_timeAfter _ _ _ _, timeAfter_of_le, timeAfter_no_delay, fun d hd href =>
    ⟨timeAfter_le_due hd href, fun hover => ?_, fun hdue => ?_⟩⟩
  · by_cases ht : t ≤ s.now
    · exact timeAfter_of_le ht
    · have hlt : s.now ≤ t := BitVec.le_of_lt (BitVec.not_le.1 ht)
      have hle : s.now.toNat ≤ t.toNat := hlt
      apply BitVec.eq_of_toNat_eq
      rw [timeAfter_delay hd hlt]
      omega
  · have hle := le_timeAfter Config.params t s.now s.blk
    rw [State.consume_blk, BitVec.toNat_sub_of_le (BitVec.le_trans href hle)]
    by_cases ht : t ≤ s.now
    · have htle : t.toNat ≤ s.now.toNat := ht
      rw [timeAfter_of_le ht]
      omega
    · have hrefle : s.blk.recov.tRef.toNat ≤ s.now.toNat := href
      rw [timeAfter_delay hd (BitVec.le_of_lt (BitVec.not_le.1 ht)), BitVec.toNat_sub_of_le href]
      omega

/-! ### The line -/

/-- A delay that has not passed has not elapsed. -/
theorem delayElapsed_eq_false {delay : Nat} {since now : Micros} (h : (now - since).toNat < delay) :
    delayElapsed delay since now = false := decide_eq_false (Nat.not_le.2 h)

/-- While a delay has not passed no step is enabled (R132, R133). -/
theorem enabledStep_of_delay {p : Params} {now : Micros} {b : Block} {d : Nat} (h : pendingDelay p b = some d)
    (hlt : (now - b.recov.tRef).toNat < d) : enabledStep p now b = none := by
  unfold pendingDelay at h
  split at h
  · rename_i hs hp
    cases h
    simp [enabledStep, hs, hp, delayElapsed_eq_false hlt]
  · rename_i hs hp
    cases h
    simp [enabledStep, hs, hp, delayElapsed_eq_false hlt]
  all_goals cases h

/-- Settles O28: the steps that read the sample are those of RECEIVING, once due. -/
theorem lineReadOnlyByEngine : Obligations.LineReadOnlyByEngine := by
  rintro p rx rx' now b (hs | ⟨d, hd, hlt⟩)
  · unfold blockStep enabledStep
    cases hst : b.state with
    | receiving => exact absurd hst hs
    | idle | searching | decoding | done => rfl
  · unfold blockStep
    rw [enabledStep_of_delay hd hlt]

/-! ### Within an attempt -/

/-- RawFrame only grows: what R58, R61 and R69 say of two moments of one attempt. -/
structure RawFrame.Grows (f g : RawFrame) : Prop where
  filled_le : f.filled.toNat ≤ g.filled.toNat
  completed : ∀ i : Fin 16, i.val < f.filled.toNat → g.raw[i] = f.raw[i]
  decided : f.famDecided = true → g.famDecided = true ∧ g.target = f.target
  target_le : f.target.bytes ≤ g.target.bytes

/-- A frame that is left alone, but for its partial byte, has grown. -/
theorem RawFrame.Grows.of_eq {f g : RawFrame} (hr : g.raw = f.raw) (hf : g.filled = f.filled)
    (hd : g.famDecided = f.famDecided) (ht : g.target = f.target) : f.Grows g :=
  ⟨hf ▸ Nat.le_refl _, fun _ _ => hr ▸ rfl, fun h => ⟨hd ▸ h, ht⟩, ht ▸ Nat.le_refl _⟩

/-- A completed byte makes the frame grow (R171, R172). -/
theorem RawFrame.Inv.grows_complete {p : Params} {f : RawFrame} (h : f.Inv p) (hroom : f.filled.toNat < f.target.bytes)
    (a : Bool) (byte : Byte) : f.Grows (f.complete p a byte) where
  filled_le := by
    rw [RawFrame.complete_filled, f.filled_succ_toNat hroom]
    omega
  completed i hi := by
    rw [f.complete_getElem, if_neg (by omega)]
  decided hd := by
    obtain ⟨-, hd', -⟩ | ⟨-, hd', ht, -⟩ := h.complete_family hroom a byte
    · exact absurd (hd.symm.trans hd') (by decide)
    · exact ⟨hd' ▸ hd, ht⟩
  target_le := by
    obtain ht | ht := f.complete_target_cases p a byte <;> rw [ht]
    exact f.target.bytes_le

/-- A turn of the block within an attempt makes the frame grow. -/
theorem BlockMove.grows {p : Params} {rx : Bool} {now : Micros} {b t : Block} (h : b.frame.Inv p)
    (hb : b.inAttempt = true) (ht : t.inAttempt = true) (hm : BlockMove p rx now b t) : b.frame.Grows t.frame := by
  cases hm with
  | byte _ _ _ _ _ hroom => exact h.grows_complete hroom _ _
  | attempt hs => simp [Block.inAttempt_iff, hs] at hb
  | _ => exact .of_eq rfl rfl rfl rfl

/-- Settles O34: within an attempt only a completed byte writes the bytes and the family. -/
theorem attemptOnlyAdds : Obligations.AttemptOnlyAdds := by
  intro s t hr hinv h hs ht
  suffices hgrows : s.blk.frame.Grows t.blk.frame from
    ⟨hgrows.filled_le, hgrows.completed, hgrows.decided, hgrows.target_le⟩
  obtain ⟨-, hc⟩ := step_blockChange hr h
  generalize t.blk = b at hc ht
  cases hc with
  | turn _ _ _ hm => exact hm.grows hinv.parts.frame hs ht
  | reset => exact absurd ht (by decide)
  | _ => exact .of_eq rfl rfl rfl rfl

/-! ### Reset -/

/-- Every register of the reset block reads 0 (R66). -/
theorem readReg_reset (r : Reg) : readReg r Block.reset = 0 := by cases r <;> rfl

/-- A step that asserts `rst` leaves the reset block, and the time (R340). -/
theorem step_rst_true {s : State} (hl : s.held.blk.lawful Config.params = true) (he : s.nextEvent = .rst true) :
    step s = .next { s.held.consume with rst := true, blk := Block.reset } := by
  rw [step_of_lawful hl, he]
  rfl

/-- An accepted REINIT leaves the reset block (R284). -/
theorem exec_reinit {s : State} (hb : s.blk.busy = false) : exec .reinit s = .next { s with blk := Block.reset } := by
  rw [exec_next]
  simp [accepts, hb, effectOf, reinitEffect]

/-- Settles O21: the next state holds `Block.reset`, whose fields are these. -/
theorem resetState : Obligations.ResetState := by
  intro s hl he
  refine ⟨_, step_rst_true hl he, rfl, by simp, fun r => readReg_reset r, rfl, rfl, rfl, rfl, rfl, rfl, rfl, rfl, rfl,
    rfl, fun i => (RawFrame.inv_empty Config.params).unfilled_zero i (Nat.zero_le _), rfl, rfl, rfl, rfl, rfl,
    fun u hu => exec_reinit hu⟩

/-- Settles O23: the reset block has the invariant at every time, and has counted nothing. -/
theorem resetMeetsInvariant : Obligations.ResetMeetsInvariant :=
  ⟨⟨nofun, Block.inv_reset Config.params_wf _⟩, Nat.zero_le _⟩

/-! ### The registers -/

/-- Settles O60: an aligned address is the offset of the register that it names. -/
theorem registerOffsets : Obligations.RegisterOffsets := by
  refine ⟨rfl, fun a r ha => ⟨fun hreg => ?_, fun hoff => hoff ▸ regAt_offset r⟩⟩
  have hlegal : legalAccess { we := false, addr := a, size := 4, wdata := 0 } = true := by simp [legalAccess, ha]
  rw [← hreg]
  exact addr_of_legalAccess hlegal

/-- The fields of a word laid out as STATUS is (R39). -/
theorem statusLayout_fields (cause kind : BitVec 4) (rejected busy : Bool) (state : BitVec 3) :
    let w := 0#16 ++ cause ++ 0#3 ++ BitVec.ofBool rejected ++ kind ++ BitVec.ofBool busy ++ state
    w.extractLsb' 0 3 = state ∧ w.getLsbD 3 = busy ∧ w.extractLsb' 4 4 = kind ∧ w.getLsbD 8 = rejected ∧
      w.extractLsb' 9 3 = 0 ∧ w.extractLsb' 12 4 = cause ∧ w.extractLsb' 16 16 = 0 := by
  intro w
  refine ⟨BitVec.extractLsb'_append_eq_right, ?_, ?_, ?_, ?_, ?_, ?_⟩
  · iterate 2 rw [BitVec.getLsbD_append]
    simp
  · iterate 2 rw [BitVec.extractLsb'_append_eq_of_le (by decide)]
    exact BitVec.extractLsb'_append_eq_right
  · iterate 4 rw [BitVec.getLsbD_append]
    simp
  · iterate 4 rw [BitVec.extractLsb'_append_eq_of_le (by decide)]
    exact BitVec.extractLsb'_append_eq_right
  · iterate 5 rw [BitVec.extractLsb'_append_eq_of_le (by decide)]
    exact BitVec.extractLsb'_append_eq_right
  · iterate 5 rw [BitVec.extractLsb'_append_eq_of_le (by decide)]
    exact BitVec.extractLsb'_append_eq_left

/-- Settles O11, from the layout of STATUS and the codes of its fields. -/
theorem statusFields : Obligations.StatusFields := by
  refine ⟨fun b => ?_, fun s => ⟨fun hr => by simp [State.done, hr], fun hr => by simp [State.done, hr]⟩⟩
  obtain ⟨hstate, hbusy, hkind, hrejected, hzero, hcause, hhigh⟩ := statusLayout_fields b.result.cause.code
    b.result.kind.code b.cmdRejected b.busy b.state.code
  refine ⟨hstate.trans ?_, hbusy, b.busy_iff, hkind.trans ?_, hrejected, hzero, hcause.trans ?_, hhigh⟩
  · cases b.state <;> rfl
  · cases b.result.kind <;> rfl
  · cases b.result.cause <;> rfl

end Sys2Proof.Machine
end

section
/-! PROOFS. The statements of 20_memory.md: the host's accesses (R80 to R83) and the result in DONE (R93). What a step
answers to each kind of access is said once; the statements are read off from it. -/

namespace Sys2Proof.Machine

/-! ### One access -/

/-- A legal access, clause by clause (R80). -/
theorem legalAccess_iff (r : BusRequest) : legalAccess r = true ↔ r.size = 4 ∧ r.addr.extractLsb' 0 2 = 0 := by
  simp [legalAccess]

/-- A legal write is `wr` of the register that its address names. -/
theorem eq_wr_of_legalAccess {r : BusRequest} (hw : r.we = true) (hl : legalAccess r = true) :
    r = wr (regAt r.addr) r.wdata := by
  have haddr := addr_of_legalAccess hl
  obtain ⟨hsize, -⟩ := (legalAccess_iff r).1 hl
  obtain ⟨we, addr, size, wdata⟩ := r
  simp only [wr, BusRequest.mk.injEq]
  exact ⟨hw, haddr, hsize, trivial⟩

/-- A legal read answers the register. -/
theorem busAccess_legal_read {r : BusRequest} {s : State} (hw : r.we = false) (hl : legalAccess r = true) :
    busAccess r s = .next (s.respond (.read (readReg (regAt r.addr) s.blk) false)) := by
  simp [busAccess, busRead, hw, hl]

/-- A legal write outside reset is `write_reg`, answered. -/
theorem busAccess_legal_write {r : BusRequest} {s : State} (hr : s.rst = false) (hw : r.we = true)
    (hl : legalAccess r = true) : busAccess r s = answerWrite (writeReg (regAt r.addr) r.wdata s) := by
  simp [busAccess, busWrite, hw, hl, hr]

/-- An illegal read answers 0 with `err` = 1. -/
theorem busAccess_illegal_read {r : BusRequest} {s : State} (hw : r.we = false) (hl : legalAccess r = false) :
    busAccess r s = .next (s.respond (.read 0 true)) := by
  simp [busAccess, busRead, hw, hl]

/-- An illegal write answers `err` = 1. -/
theorem busAccess_illegal_write {r : BusRequest} {s : State} (hw : r.we = true) (hl : legalAccess r = false) :
    busAccess r s = .next (s.respond (.write true)) := by
  simp [busAccess, busWrite, hw, hl]

/-- A register other than CMD and DEADLINE ignores a write (R82). -/
theorem writeReg_read_only {r : Reg} (hc : r ≠ .cmd) (hd : r ≠ .deadline) (v : Word) (s : State) :
    writeReg r v s = .next s := by
  cases r with
  | cmd => exact absurd rfl hc
  | deadline => exact absurd rfl hd
  | _ => rfl

/-- What the host would read depends on the block and on `rst` alone. -/
theorem State.window_congr {s t : State} (hb : t.blk = s.blk) (hr : t.rst = s.rst) (r : Reg) :
    t.window r = s.window r := by
  cases hs : s.rst with
  | false => simp only [State.window, State.held_of_not_rst hs, State.held_of_not_rst (hr.trans hs), hb]
  | true => simp only [State.window, State.held_blk_of_rst hs, State.held_blk_of_rst (hr.trans hs)]

/-! ### A step that serves an access -/

/-- Outside reset a step serves an access on the state whose event is used up. -/
theorem step_bus {s : State} {r : BusRequest} (hr : s.rst = false) (hl : s.blk.lawful Config.params = true)
    (he : s.nextEvent = .bus r) : step s = busAccess r s.consume := by
  rw [step_of_lawful_running hr hl, he]
  rfl

/-- Settles O7: the access, legal or illegal, read or write. -/
theorem accessLegality : Obligations.AccessLegality := by
  intro s r hr hl he
  rw [step_bus hr hl he, ← legalAccess_iff, Bool.not_eq_true]
  refine ⟨fun hlegal => ⟨fun hw => ?_, fun hw => ?_⟩, fun hillegal => ⟨fun hw => ?_, fun hw => ?_⟩⟩
  · rw [busAccess_legal_read hw hlegal, State.consume_blk]
  · exact busAccess_legal_write (s.consume_rst.trans hr) hw hlegal
  · exact busAccess_illegal_read hw hillegal
  · exact busAccess_illegal_write hw hillegal

/-- A step that serves a read by register name answers the register. -/
theorem step_rd {s : State} {r : Reg} (hr : s.rst = false) (hl : s.blk.lawful Config.params = true)
    (he : s.nextEvent = .bus (rd r)) :
    step s = .next (s.consume.respond (.read (readReg r s.blk) false)) := by
  obtain ⟨hread, -⟩ := (accessLegality s (rd r) hr hl he).1 ((legalAccess_iff _).1 (legalAccess_rd r))
  simpa only [rd, regAt_offset] using hread rfl

/-- A step that serves a write by register name is `write_reg` of that register. -/
theorem step_wr {s : State} {r : Reg} {v : Word} (hr : s.rst = false) (hl : s.blk.lawful Config.params = true)
    (he : s.nextEvent = .bus (wr r v)) : step s = answerWrite (writeReg r v s.consume) := by
  obtain ⟨-, hwrite⟩ := (accessLegality s (wr r v) hr hl he).1 ((legalAccess_iff _).1 (legalAccess_wr r v))
  simpa only [wr, regAt_offset] using hwrite rfl

/-- Settles O8: a read changes the response alone, and the window does not show the response. -/
theorem readHasNoSideEffect : Obligations.ReadHasNoSideEffect := by
  intro s r hr hl he
  refine ⟨_, step_rd hr hl he, rfl, s.consume_blk, s.consume_now, s.consume_rst,
    State.window_congr s.consume_blk s.consume_rst, ?_⟩
  rintro (rfl | rfl) <;> rfl

/-- Settles O9: `write_reg` at CMD, at DEADLINE and at any other register. -/
theorem writeRegister : Obligations.WriteRegister := by
  intro s r v hr hl he
  rw [step_wr hr hl he]
  refine ⟨?_, ?_, fun hc hd => ?_⟩
  · rintro rfl
    rfl
  · rintro rfl
    simp only [writeReg, answerWrite, State.consume_blk]
  · rw [writeReg_read_only hc hd]
    rfl

/-! ### A step that serves a command -/

/-- Serving a placed command uses up its write, and leaves `rst` at 0. -/
theorem State.consume_withCommand (s : State) (w : Word) : (s.withCommand w).consume = { s with rst := false } := rfl

/-- Settles O6: a command request is a write to CMD, and `withFetchWord` places one. -/
theorem stepRunsDecodedCommand : Obligations.StepRunsDecodedCommand := by
  have hrequest : ∀ (s : State) (w : Word), s.rst = false → s.blk.lawful Config.params = true →
      s.nextEvent = .bus (commandRequest w) → step s = answerWrite (exec (decode w) s.consume) :=
    fun s w hr hl he => (writeRegister s .cmd w hr hl he).1 rfl
  refine ⟨hrequest, fun s nbits w hl => ?_⟩
  have hplaced := hrequest (s.withCommand (tableWord nbits w)) (tableWord nbits w) rfl hl rfl
  rwa [State.consume_withCommand] at hplaced

/-! ### The result in DONE -/

/-- Every command but DECODE_ONCE and REINIT leaves the controller state and the result (R93). -/
theorem command_keeps_result {i : Instr} (hd : i ≠ .decodeOnce) (hr : i ≠ .reinit) (now : Micros) (b : Block) :
    let t := if accepts i b.busy then effectOf now i (b.setRejected false) else b.setRejected true
    t.state = b.state ∧ t.result = b.result := by
  intro t
  have heffect : ∀ u : Block, (effectOf now i u).state = u.state ∧ (effectOf now i u).result = u.result := by
    intro u
    cases i with
    | decodeOnce => exact absurd rfl hd
    | reinit => exact absurd rfl hr
    | _ => exact ⟨rfl, rfl⟩
  by_cases ha : accepts i b.busy = true
  · simpa [t, ha] using heffect (b.setRejected false)
  · simp [t, ha]

/-- Settles O49: in DONE the block takes no step, and of the accesses only DECODE_ONCE and REINIT write the result. -/
theorem resultStaysInDone : Obligations.ResultStaysInDone := by
  intro s t hr hdone h hrst hcmd
  obtain ⟨-, hm⟩ := step_move h
  rw [State.held_of_not_rst hr] at hm
  suffices hkept : t.blk.state = s.blk.state ∧ t.blk.result = s.blk.result from ⟨hkept.1.trans hdone, hkept.2⟩
  generalize s.nextEvent = e at hm hrst hcmd
  cases hm with
  | read | illegalWrite | ignoredWrite | deadlineWrite | time => simp
  | command r hw hl _ hreg =>
    have hrequest : r = commandRequest r.wdata := by
      have hwr := eq_wr_of_legalAccess hw hl
      rwa [hreg] at hwr
    obtain ⟨hd, hre⟩ := hcmd r.wdata (congrArg Event.bus hrequest)
    simpa using command_keeps_result hd hre s.now s.blk
  | block rx b hmove =>
    have hbusy : s.consume.blk.busy = false := (Block.not_busy_iff _).2 (.inr (s.consume_blk.symm ▸ hdone))
    simp [hmove.eq_of_not_busy hbusy]
  | rst level =>
    cases level with
    | false => simp [State.held]
    | true => exact absurd rfl hrst

end Sys2Proof.Machine
end

section
/-! PROOFS. The statements of 30_encoding.md: the command word (R100 to R103, R114), the host's pseudo-instructions
(R116) and the bit stream of a frame (R109, R112). The decoder is known by its opcode and, for START_SESSION, its
operand bits; the encoder by the fields of the word it writes; the stream by what a preamble, a byte and a frame of bytes
leave in the block. -/

namespace Sys2Proof

/-! ### The decoder -/

/-- The decoded command's opcode is `w[3:0]` (R100). -/
@[simp] theorem decode_opcode (w : Word) : (decode w).opcode = w.extractLsb' 0 4 := by
  unfold decode
  generalize w.extractLsb' 0 4 = op
  have hlt := op.isLt
  apply BitVec.eq_of_toNat_eq
  split
  case h_16 =>
    show 15 = op.toNat
    simp only [imp_false] at *
    omega
  all_goals exact Eq.symm ‹_›

/-- Opcode 1 takes the operands from bits 8, 9 and 10 (R102). -/
theorem decode_startSession {w : Word} (h : w.extractLsb' 0 4 = 1) :
    decode w = .startSession (w.getLsbD 8) (w.getLsbD 9) (w.getLsbD 10) := by
  unfold decode
  rw [h]
  rfl

/-- A command without operands is the one that its opcode alone decodes to. -/
theorem decode_of_opcode {i : Instr} (h : i.opcode ≠ 1) : decode (i.opcode.setWidth 32) = i := by
  cases i with
  | startSession => exact absurd rfl h
  | _ => rfl

/-- Two commands of one opcode without operands are the same. -/
theorem Instr.eq_of_opcode {i j : Instr} (h : i.opcode = j.opcode) (h1 : i.opcode ≠ 1) : i = j := by
  rw [← decode_of_opcode h1, h, decode_of_opcode (h ▸ h1)]

/-- Settles O3: the opcode names the command, and a command without operands is its opcode. -/
theorem wordSelectsCommand : Obligations.WordSelectsCommand := by
  intro w
  refine ⟨decode_opcode w, decode_startSession, fun w' hne heq => ?_⟩
  exact Instr.eq_of_opcode (by rw [decode_opcode, decode_opcode, heq]) (by rwa [decode_opcode, heq])

/-- Settles O5: four bytes are a command word, and fewer are none. -/
theorem onlyShortBytesRejected : Obligations.OnlyShortBytesRejected := by
  rintro (_ | ⟨b0, _ | ⟨b1, _ | ⟨b2, _ | ⟨b3, rest⟩⟩⟩⟩)
  all_goals simp [decodeBytes]

/-- The bits that R103 names do not change the decoded command. -/
theorem decode_congr {w w' : Word} (hop : w.extractLsb' 0 4 = w'.extractLsb' 0 4)
    (hbits : w.extractLsb' 0 4 = 1 → w.extractLsb' 8 3 = w'.extractLsb' 8 3) : decode w = decode w' := by
  by_cases h1 : w.extractLsb' 0 4 = 1
  · have hbit : ∀ k < 3, w.getLsbD (8 + k) = w'.getLsbD (8 + k) := fun k hk => by
      simpa [BitVec.getLsbD_extractLsb', hk] using congrArg (BitVec.getLsbD · k) (hbits h1)
    rw [decode_startSession h1, decode_startSession (hop ▸ h1), hbit 0 (by decide), hbit 1 (by decide),
      hbit 2 (by decide)]
  · obtain ⟨-, -, hsame⟩ := wordSelectsCommand w'
    exact hsame w (hop ▸ h1) hop

/-! ### The encoder -/

/-- The fields of a command word (R100): the opcode, the operand bits, and 0 in the bits that R103 ignores. -/
theorem commandWord_fields (pol l s : Bool) (op : BitVec 4) :
    let w := commandWord pol l s op
    w.extractLsb' 0 4 = op ∧ w.extractLsb' 4 4 = 0 ∧ w.getLsbD 8 = s ∧ w.getLsbD 9 = l ∧ w.getLsbD 10 = pol ∧
      w.extractLsb' 8 3 = BitVec.ofBool pol ++ BitVec.ofBool l ++ BitVec.ofBool s ∧ w.extractLsb' 11 21 = 0 := by
  unfold commandWord
  intro w
  refine ⟨BitVec.extractLsb'_append_eq_right, ?_, ?_, ?_, ?_, ?_, ?_⟩
  · rw [BitVec.extractLsb'_append_eq_of_le (by decide)]
    exact BitVec.extractLsb'_append_eq_right
  iterate 3
    · iterate 5 rw [BitVec.getLsbD_append]
      simp
  · iterate 2 rw [BitVec.extractLsb'_append_eq_of_le (by decide)]
    revert pol l s
    decide
  · iterate 4 rw [BitVec.extractLsb'_append_eq_of_le (by decide)]
    exact BitVec.extractLsb'_append_eq_left

/-- The encoder writes the opcode, the operands of START_SESSION, and 0 for the operands of every other command. -/
theorem encode_eq_commandWord (i : Instr) :
    ∃ s l pol, encode i = commandWord pol l s i.opcode ∧
      (i.opcode ≠ 1 → s = false ∧ l = false ∧ pol = false) := by
  cases i with
  | startSession s l pol => exact ⟨s, l, pol, rfl, fun h => absurd rfl h⟩
  | _ => exact ⟨false, false, false, rfl, fun _ => ⟨rfl, rfl, rfl⟩⟩

/-- The encoder writes the opcode to `w[3:0]` (R100). -/
theorem encode_op (i : Instr) : (encode i).extractLsb' 0 4 = i.opcode := by
  obtain ⟨s, l, pol, henc, -⟩ := encode_eq_commandWord i
  exact henc ▸ (commandWord_fields pol l s i.opcode).1

/-- Decoding an encoded command gives it back (R100 to R102). -/
@[simp] theorem decode_encode (i : Instr) : decode (encode i) = i := by
  have hop : (decode (encode i)).opcode = i.opcode := (decode_opcode _).trans (encode_op i)
  cases i with
  | startSession s l pol =>
    obtain ⟨h1, -, hs, hl, hpol, -, -⟩ := commandWord_fields pol l s 1
    rw [encode, Instr.opcode, decode_startSession h1, hs, hl, hpol]
  | _ => exact Instr.eq_of_opcode hop (by rw [hop]; decide)

/-- Settles O2: the word decodes to the command, and its four bytes are that word. -/
theorem decodeOfEncode : Obligations.DecodeOfEncode := by
  intro i rest _
  refine ⟨decode_encode i, ?_⟩
  rw [encodeBytes, decodeBytes_bytesOfWord, decode_encode]

/-- Settles O4: the decoder reads the opcode and the operand bits alone, and the encoder writes 0 elsewhere. -/
theorem reservedBitsIgnored : Obligations.ReservedBitsIgnored := by
  refine ⟨fun w w' s hop hbits => ?_, fun i => ?_⟩
  · rw [decode_congr hop hbits]
  · obtain ⟨s, l, pol, henc, hflags⟩ := encode_eq_commandWord i
    obtain ⟨-, hlow, -, -, -, hoperands, hhigh⟩ := commandWord_fields pol l s i.opcode
    rw [henc]
    refine ⟨hlow, hhigh, fun hne => hoperands.trans ?_⟩
    obtain ⟨rfl, rfl, rfl⟩ := hflags hne
    rfl

/-- Settles O1: each word by evaluating the decoder. -/
theorem specWordsDecode : Obligations.SpecWordsDecode := by
  unfold Obligations.SpecWordsDecode
  decide

end Sys2Proof

namespace Sys2Proof.Machine

/-! ### The host's pseudo-instructions -/

/-- The word of START_SESSION as the host's pseudo-instruction spells it (R116). -/
theorem encode_startSession_eq_or (s l pol : Bool) :
    encode (.startSession s l pol) =
      0x1 ||| (BitVec.ofBool s).setWidth 32 <<< 8 ||| (BitVec.ofBool l).setWidth 32 <<< 9 |||
        (BitVec.ofBool pol).setWidth 32 <<< 10 := by
  revert s l pol
  decide

/-- The mask 0x7 keeps the low three bits, where STATUS has the controller state (R39). -/
theorem and_seven (w : Word) : w &&& 0x7 = (w.extractLsb' 0 3).setWidth 32 := by
  apply BitVec.eq_of_toNat_eq
  have hmask : w.toNat &&& 7 = w.toNat % 8 := Nat.and_two_pow_sub_one_eq_mod w.toNat 3
  rw [BitVec.toNat_setWidth_of_le (by decide), BitVec.extractLsb'_toNat]
  simpa using hmask

/-- Settles O12: the words by evaluating the encoder, and the two tests from the fields of STATUS. -/
theorem hostSyntaxExpands : Obligations.HostSyntaxExpands := by
  refine ⟨fun s l pol ms => by rw [Pseudo.expand, encode_startSession_eq_or], rfl, rfl, rfl, rfl, rfl, rfl,
    fun b => ?_⟩
  obtain ⟨hstate, -, -, -, hrejected, -⟩ := statusFields.1 b
  refine ⟨?_, ?_⟩
  · rw [waitsOn, and_seven, hstate]
    cases b.state <;> decide
  · rw [wasAccepted, hrejected, Bool.not_eq_true']

/-! ### The bits of a stream, one by one -/

section
variable {p : Params} {b t : Block}

/-- A bit of a stream that finds the block in RECEIVING goes to the header synchronizer (R137). -/
theorem feedBits_cons {bit : Bool} (rest : List Bool) (hs : b.state = .receiving) (h : headerSync p bit b = .ok t) :
    feedBits p (bit :: rest) b = feedBits p rest t := by
  simp only [feedBits, hs, if_true, h]

/-- Once the block has left RECEIVING no more bits are requested (R137, R173). -/
theorem feedBits_of_not_receiving (bits : List Bool) (hs : b.state ≠ .receiving) : feedBits p bits b = .ok b := by
  cases bits with
  | nil => rfl
  | cons => simp only [feedBits, hs, if_false]

/-- A stream in two parts: the second finds what the first has left. -/
theorem feedBits_append {xs : List Bool} (ys : List Bool) (h : feedBits p xs b = .ok t) :
    feedBits p (xs ++ ys) b = feedBits p ys t := by
  induction xs generalizing b with
  | nil =>
    cases h
    rfl
  | cons bit rest ih =>
    by_cases hs : b.state = .receiving
    · simp only [feedBits, hs, if_true] at h
      split at h
      · rename_i u hu
        exact (feedBits_cons _ hs hu).trans (ih h)
      · cases h
    · rw [feedBits_of_not_receiving _ hs] at h ⊢
      cases h
      exact (feedBits_of_not_receiving _ hs).symm

/-- One bit alone. -/
theorem feedBits_singleton {bit : Bool} (hs : b.state = .receiving) (h : headerSync p bit b = .ok t) :
    feedBits p [bit] b = .ok t := feedBits_cons [] hs h

/-! ### The preamble -/

/-- A one of the preamble is HS.ONE's (R150). -/
theorem headerSync_one (h0 : b.recov.saw0 = false) : headerSync p true b = .ok (hsOne p b) := by
  simp [headerSync, h0]

/-- A one below the last that the threshold asks for is counted (R150). -/
theorem headerSync_one_counted (h0 : b.recov.saw0 = false) (hr : b.recov.run.toNat + 1 < p.headerThreshold.toNat) :
    headerSync p true b = .ok { b with recov := { b.recov with run := b.recov.run + 1 } } := by
  have hlt : b.recov.run < p.headerThreshold := BitVec.lt_def.2 (by omega)
  have hne : b.recov.run + 1 ≠ p.headerThreshold := fun h => by
    have := congrArg BitVec.toNat h
    rw [run_succ_toNat hlt] at this
    omega
  rw [headerSync_one h0, hsOne, if_pos hlt, if_neg hne]

/-- The one that reaches the threshold finds the header (R150). -/
theorem headerSync_one_found (h0 : b.recov.saw0 = false) (hr : b.recov.run.toNat + 1 = p.headerThreshold.toNat) :
    headerSync p true b = .ok { b with
      recov := { b.recov with run := p.headerThreshold, inPre := false }
      cnt := { b.cnt with headers := b.cnt.headers + 1 } } := by
  have hlt : b.recov.run < p.headerThreshold := BitVec.lt_def.2 (by omega)
  have heq : b.recov.run + 1 = p.headerThreshold := BitVec.eq_of_toNat_eq (by rw [run_succ_toNat hlt, hr])
  rw [headerSync_one h0, hsOne, if_pos hlt, if_pos heq, heq]

/-- A one past the threshold is absorbed (R150). -/
theorem headerSync_one_absorbed (h0 : b.recov.saw0 = false) (hr : b.recov.run = p.headerThreshold) :
    headerSync p true b = .ok b := by
  rw [headerSync_one h0, hsOne, if_neg (by rw [hr]; exact BitVec.lt_irrefl _)]

/-- The zero after the threshold is the synchronization zero (R152). -/
theorem headerSync_zero_sync (h0 : b.recov.saw0 = false) (hr : b.recov.run = p.headerThreshold) :
    headerSync p false b = .ok (hsSync b) := by
  simp [headerSync, h0, hr]

/-- Counting one, then `m` more. -/
theorem add_one_add_ofNat {w : Nat} (x : BitVec w) (m : Nat) :
    x + 1 + BitVec.ofNat w m = x + BitVec.ofNat w (m + 1) := by
  rw [BitVec.ofNat_add, BitVec.add_comm (BitVec.ofNat w m), BitVec.add_assoc]
  rfl

/-- Ones short of the threshold are counted (R150). -/
theorem feedBits_ones_counted {m : Nat} (hs : b.state = .receiving) (h0 : b.recov.saw0 = false)
    (hm : b.recov.run.toNat + m < p.headerThreshold.toNat) :
    feedBits p (List.replicate m true) b =
      .ok { b with recov := { b.recov with run := b.recov.run + BitVec.ofNat 8 m } } := by
  induction m generalizing b with
  | zero => simp [feedBits]
  | succ m ih =>
    have hlt : b.recov.run < p.headerThreshold := BitVec.lt_def.2 (by omega)
    have hrun := run_succ_toNat hlt
    rw [List.replicate_succ, feedBits_cons _ hs (headerSync_one_counted h0 (by omega)), ← add_one_add_ofNat]
    exact ih hs h0 (show (b.recov.run + 1).toNat + m < _ by omega)

/-- Ones past the threshold are absorbed, however many they are (R150). -/
theorem feedBits_ones_absorbed (m : Nat) (hs : b.state = .receiving) (h0 : b.recov.saw0 = false)
    (hr : b.recov.run = p.headerThreshold) : feedBits p (List.replicate m true) b = .ok b := by
  induction m with
  | zero => rfl
  | succ m ih => rw [List.replicate_succ, feedBits_cons _ hs (headerSync_one_absorbed h0 hr), ih]

/-- The block of a fresh attempt once its header is found and the synchronization zero consumed: frame capture begins
(R152). -/
def Block.capturing (p : Params) (b : Block) : Block :=
  { b.attemptStart with
    recov := { Recovery.fresh b.sess.pol with run := p.headerThreshold, inPre := false, saw0 := true }
    cnt := { b.cnt with headers := b.cnt.headers + 1 } }

/-- As many ones as the threshold asks for find the header (R150). -/
theorem feedBits_header (hp : p.wf = true) : feedBits p (List.replicate p.headerThreshold.toNat true) b.attemptStart =
    .ok { b.attemptStart with
      recov := { Recovery.fresh b.sess.pol with run := p.headerThreshold, inPre := false }
      cnt := { b.cnt with headers := b.cnt.headers + 1 } } := by
  obtain ⟨m, hm⟩ : ∃ m, p.headerThreshold.toNat = m + 1 :=
    Nat.exists_eq_succ_of_ne_zero (Params.threshold_pos hp).ne'
  have hrun : (0 + BitVec.ofNat 8 m : Byte).toNat = m := by
    have := p.headerThreshold.isLt
    simp
    omega
  rw [hm, List.replicate_succ', feedBits_append _ (feedBits_ones_counted rfl rfl (show 0 + m < _ by omega))]
  exact feedBits_singleton rfl (headerSync_one_found rfl (by rw [hm]; exact congrArg (· + 1) hrun))

/-- A preamble of at least the threshold's ones, and the synchronization zero, begin frame capture (R109, R154). -/
theorem feedBits_preamble {n : Nat} (hp : p.wf = true) (hn : p.headerThreshold.toNat ≤ n) :
    feedBits p (List.replicate n true ++ [false]) b.attemptStart = .ok (b.capturing p) := by
  obtain ⟨k, rfl⟩ := Nat.exists_eq_add_of_le hn
  rw [List.replicate_add, List.append_assoc, feedBits_append _ (feedBits_header hp),
    feedBits_append _ (feedBits_ones_absorbed k rfl rfl rfl)]
  exact feedBits_singleton rfl (headerSync_zero_sync rfl rfl)

/-! ### The bytes of a frame -/

/-- A data bit before the eighth enters the partial byte (R170). -/
theorem headerSync_data_shift {bit : Bool} (h0 : b.recov.saw0 = true)
    (hroom : b.frame.filled.toNat < b.frame.target.bytes) (hnb : b.frame.nb ≠ 7) : headerSync p bit b =
      .ok { b with frame := { b.frame with acc := shiftIn b.frame.acc bit, nb := b.frame.nb + 1 } } := by
  rw [headerSync, if_pos h0, hsData, accumulate, if_pos ((RawFrame.hasRoom_iff _).2 hroom), if_neg hnb]

/-- The eighth data bit completes the byte (R171 to R173). -/
theorem headerSync_data_byte {bit : Bool} (h0 : b.recov.saw0 = true)
    (hroom : b.frame.filled.toNat < b.frame.target.bytes) (hnb : b.frame.nb = 7) :
    headerSync p bit b = .ok (completeByte p (shiftIn b.frame.acc bit) b) := by
  rw [headerSync, if_pos h0, hsData, accumulate, if_pos ((RawFrame.hasRoom_iff _).2 hroom), if_pos hnb]

/-- What a completed byte writes: RawFrame, and the controller state when the frame is whole (R171 to R173). -/
theorem completeByte_eq (byte : Byte) : completeByte p byte b = { b with
    frame := b.frame.complete p b.sess.accLong byte
    state :=
      if (b.frame.filled + 1).toNat = (b.frame.complete p b.sess.accLong byte).target.bytes then .decoding
      else b.state } := by
  rw [completeByte, Block.completeFrame_eq, ← RawFrame.complete_filled p b.sess.accLong byte]
  rfl

/-- Data bits before the eighth are shifted into the partial byte (R170). -/
theorem feedBits_shift {bits : List Bool} (hs : b.state = .receiving) (h0 : b.recov.saw0 = true)
    (hroom : b.frame.filled.toNat < b.frame.target.bytes) (hlen : b.frame.nb.toNat + bits.length ≤ 7) :
    feedBits p bits b = .ok { b with frame := { b.frame with
      acc := bits.foldl shiftIn b.frame.acc, nb := b.frame.nb + BitVec.ofNat 3 bits.length } } := by
  induction bits generalizing b with
  | nil => simp [feedBits]
  | cons bit rest ih =>
    rw [List.length_cons] at hlen
    have hnb : b.frame.nb ≠ 7 := fun h => by
      rw [h] at hlen
      simp at hlen
    have hsucc : (b.frame.nb + 1).toNat = b.frame.nb.toNat + 1 := by
      rw [BitVec.toNat_add]
      simp
      omega
    rw [feedBits_cons _ hs (headerSync_data_shift h0 hroom hnb), List.length_cons, ← add_one_add_ofNat]
    exact ih hs h0 hroom (show (b.frame.nb + 1).toNat + rest.length ≤ 7 by omega)

/-- From an empty partial byte, eight data bits complete a byte (R171). -/
theorem feedBits_byte {bits : List Bool} {bit : Bool} (hs : b.state = .receiving) (h0 : b.recov.saw0 = true)
    (hroom : b.frame.filled.toNat < b.frame.target.bytes) (hnb : b.frame.nb = 0) (hlen : bits.length = 7) :
    feedBits p (bits ++ [bit]) b = .ok (completeByte p ((bits ++ [bit]).foldl shiftIn b.frame.acc) b) := by
  rw [feedBits_append _ (feedBits_shift hs h0 hroom (by rw [hnb, hlen]; decide)), List.foldl_append]
  exact feedBits_singleton hs (headerSync_data_byte h0 hroom (by simp only [hnb, hlen]; rfl))

end

/-- The eight bits of byte `k` of the data, in the order in which they are sent (R86). -/
def byteBits (data : List Bool) (k : Nat) : List Bool := (List.range 8).map fun i => data.getD (8 * k + i) false

/-- The data bits up to a byte, and the bits of that byte. -/
theorem take_succ_byte {data : List Bool} {k : Nat} (h : 8 * (k + 1) ≤ data.length) :
    data.take (8 * (k + 1)) = data.take (8 * k) ++ byteBits data k := by
  rw [Nat.mul_succ, List.take_add]
  congr 1
  refine List.ext_getElem (by simp [byteBits]; omega) fun i hi hi' => ?_
  have hlt : 8 * k + i < data.length := by simp at hi; omega
  simp [byteBits, List.getElem?_eq_getElem hlt]

/-- A shifted partial byte, bit by bit (R170). -/
theorem getLsbD_shiftIn (acc : Byte) (bit : Bool) (i : Nat) :
    (shiftIn acc bit).getLsbD i = if i = 0 then bit else decide (i < 8) && acc.getLsbD (i - 1) := by
  rw [shiftIn, BitVec.getLsbD_append]
  cases i with
  | zero => simp
  | succ i =>
    have h8 : i + 1 < 8 ↔ i < 7 := Nat.succ_lt_succ_iff
    simp [h8]

/-- Eight bits shifted in are the byte: nothing of the old partial byte is left, and the first bit is bit 7. -/
theorem foldl_shiftIn_byteBits (data : List Bool) (k : Nat) (acc : Byte) :
    (byteBits data k).foldl shiftIn acc = byteAt data k := by
  simp only [byteBits, byteAt, List.range_succ, List.range_zero, List.nil_append, List.cons_append, List.map_cons,
    List.map_nil, List.foldl_cons, List.foldl_nil]
  apply BitVec.eq_of_getLsbD_eq
  intro i hi
  simp only [getLsbD_shiftIn, BitVec.getLsbD_append]
  interval_cases i
  all_goals simp

/-- The eight bits of a byte of the data complete that byte (R86, R171). -/
theorem feedBits_byteBits {p : Params} {b : Block} (data : List Bool) (k : Nat) (hs : b.state = .receiving)
    (h0 : b.recov.saw0 = true) (hroom : b.frame.filled.toNat < b.frame.target.bytes) (hnb : b.frame.nb = 0) :
    feedBits p (byteBits data k) b = .ok (completeByte p (byteAt data k) b) := by
  rw [← foldl_shiftIn_byteBits data k b.frame.acc, byteBits, List.range_succ, List.map_append]
  exact feedBits_byte hs h0 hroom hnb rfl

/-! ### A whole frame -/

/-- A target is at least 7 bytes. -/
theorem Target.le_bytes (t : Target) : 7 ≤ t.bytes := by cases t <;> decide

/-- A frame is at least 7 bytes long (R112). -/
theorem le_frameLength (p : Params) (accLong : Bool) (data : List Bool) : 7 ≤ frameLength p accLong data := by
  unfold frameLength
  split <;> decide

/-- RawFrame with the first `k` bytes of the data captured and no partial byte. -/
structure RawFrame.Holds (p : Params) (accLong : Bool) (data : List Bool) (k : Nat) (f : RawFrame) : Prop where
  inv : f.Inv p
  filled_eq : f.filled.toNat = k
  nb_eq : f.nb = 0
  bytes_eq : ∀ i : Fin 16, i.val < k → f.raw[i] = byteAt data i.val
  /-- From the second byte on the length is decided (R172). -/
  target_eq : 2 ≤ k → f.target.bytes = frameLength p accLong data

/-- An attempt starts with no byte captured (R68). -/
theorem RawFrame.holds_empty (p : Params) (accLong : Bool) (data : List Bool) :
    RawFrame.empty.Holds p accLong data 0 where
  inv := RawFrame.inv_empty p
  filled_eq := rfl
  nb_eq := rfl
  bytes_eq := fun _ h => absurd h (Nat.not_lt_zero _)
  target_eq := fun h => absurd h (by decide)

section
variable {p : Params} {accLong : Bool} {data : List Bool} {k : Nat} {f : RawFrame}

/-- Short of the frame's length there is room: the target is at least 7 bytes, and the frame's length once decided. -/
theorem RawFrame.Holds.room (h : f.Holds p accLong data k) (hk : k < frameLength p accLong data) :
    f.filled.toNat < f.target.bytes := by
  rw [h.filled_eq]
  by_cases h2 : 2 ≤ k
  · rwa [h.target_eq h2]
  · have h7 := f.target.le_bytes
    omega

/-- RawFrame is full exactly with the frame's last byte (R112, R173). -/
theorem RawFrame.Holds.full_iff (h : f.Holds p accLong data k) :
    k = f.target.bytes ↔ k = frameLength p accLong data := by
  by_cases h2 : 2 ≤ k
  · rw [h.target_eq h2]
  · have h7 := f.target.le_bytes
    have h7' := le_frameLength p accLong data
    omega

/-- The next byte of the data extends what RawFrame holds; the second decides the length (R112, R172). -/
theorem RawFrame.Holds.complete (h : f.Holds p accLong data k) (hk : k < frameLength p accLong data) :
    (f.complete p accLong (byteAt data k)).Holds p accLong data (k + 1) where
  inv := h.inv.complete (h.room hk) _ _
  filled_eq := by rw [RawFrame.complete_filled, RawFrame.filled_succ_toNat (h.room hk), h.filled_eq]
  nb_eq := RawFrame.complete_nb _ _ _ _
  bytes_eq i hi := by
    rw [RawFrame.complete_getElem, h.filled_eq]
    split
    · rename_i hki
      rw [hki]
    · exact h.bytes_eq i (by omega)
  target_eq h2 := by
    obtain ⟨h1, -, -, hlong⟩ | ⟨h1, -, htarget, -⟩ := h.inv.complete_family (h.room hk) accLong (byteAt data k)
    · rw [h.filled_eq] at h1
      subst h1
      have hbyte : (f.complete p accLong (byteAt data 1)).raw[1] = byteAt data 1 :=
        (f.complete_getElem p accLong _ 1).trans (if_pos h.filled_eq)
      rw [hbyte] at hlong
      unfold frameLength
      cases ht : (f.complete p accLong (byteAt data 1)).target <;> rw [ht] at hlong
      · rw [if_neg (fun hl => nomatch hlong.2 hl)]
        rfl
      · rw [if_pos (hlong.1 rfl)]
        rfl
    · rw [htarget]
      rw [h.filled_eq] at h1
      exact h.target_eq (by omega)

end

section
variable {p : Params} {b : Block} {data : List Bool}

/-- The data bits up to byte `k` of a frame, fed to a block that captures a frame: RawFrame holds the bytes, and the
last byte goes to DECODING (R173, R174). Nothing else is written. -/
theorem feedBits_bytes (hs : b.state = .receiving) (h0 : b.recov.saw0 = true) (hf : b.frame = RawFrame.empty)
    (hlen : data.length = 8 * frameLength p b.sess.accLong data) {k : Nat}
    (hk : k ≤ frameLength p b.sess.accLong data) :
    ∃ f : RawFrame, f.Holds p b.sess.accLong data k ∧ feedBits p (data.take (8 * k)) b = .ok { b with
      frame := f
      state := if k = frameLength p b.sess.accLong data then .decoding else .receiving } := by
  induction k with
  | zero =>
    have h7 := le_frameLength p b.sess.accLong data
    refine ⟨b.frame, hf ▸ RawFrame.holds_empty _ _ _, ?_⟩
    rw [if_neg (by omega), ← hs]
    rfl
  | succ k ih =>
    obtain ⟨f, hholds, hfed⟩ := ih (by omega)
    have hroom := hholds.room hk
    have hnext := hholds.complete hk
    refine ⟨_, hnext, ?_⟩
    rw [take_succ_byte (by omega), feedBits_append _ hfed, if_neg (by omega)]
    have hbyte := feedBits_byteBits (p := p) (b := { b with frame := f, state := .receiving }) data k rfl h0 hroom
      hholds.nb_eq
    rw [hbyte, completeByte_eq]
    have hfilled : (f.filled + 1).toNat = k + 1 := hnext.filled_eq ▸ by rw [RawFrame.complete_filled]
    simp only [hfilled, hnext.full_iff]

/-- A frame's data bits, fed to a block that captures a frame, end in DECODING with the frame's bytes (R174). -/
theorem feedBits_frame (hs : b.state = .receiving) (h0 : b.recov.saw0 = true) (hf : b.frame = RawFrame.empty)
    (hlen : data.length = 8 * frameLength p b.sess.accLong data) :
    ∃ f : RawFrame, f.Holds p b.sess.accLong data (frameLength p b.sess.accLong data) ∧
      feedBits p data b = .ok { b with frame := f, state := .decoding } := by
  obtain ⟨f, hholds, hfed⟩ := feedBits_bytes hs h0 hf hlen (Nat.le_refl _)
  rw [List.take_of_length_le hlen.le, if_pos rfl] at hfed
  exact ⟨f, hholds, hfed⟩

end

/-- Settles O33: the preamble begins frame capture, and the data bits are captured byte by byte. -/
theorem frameStreamIsCaptured : Obligations.FrameStreamIsCaptured := by
  intro p n data b hp hn hlen
  obtain ⟨f, hholds, hfed⟩ := feedBits_frame (b := b.capturing p) rfl rfl rfl hlen
  have hstream : frameStream n data = (List.replicate n true ++ [false]) ++ data := by simp [frameStream]
  have hdecided : 2 ≤ frameLength p b.sess.accLong data := le_trans (by decide) (le_frameLength _ _ _)
  rw [hstream, feedBits_append _ (feedBits_preamble hp hn)]
  refine ⟨_, hfed, rfl, hholds.filled_eq, hholds.target_eq hdecided, fun i => ?_, rfl, rfl, rfl, rfl, rfl, rfl, rfl⟩
  split
  · exact hholds.bytes_eq i ‹_›
  · exact hholds.inv.unfilled_zero i (by rw [hholds.filled_eq]; exact Nat.le_of_not_lt ‹_›)

end Sys2Proof.Machine
end

section
/-! PROOFS. The statements of 40_bit_recovery.md: the three steps of the bit recovery engine (R131 to R134) and its
steady state on a line of symbols (R135, R352). What the engine does in each phase, and the level of the line in each
half of a symbol, are said once; the iteration of R135 is assembled from them. -/

namespace Sys2Proof.Machine

/-! ### The engine's steps on a sample -/

section
variable {rx : Bool} {now : Micros} {b : Block}

/-- A poll that finds the awaited level starts the short delay (R131). -/
theorem brPoll_of_eq (h : rx = b.recov.expected) :
    brPoll rx now b = { b with recov := { b.recov with tRef := now, ph := .waitShort } } := if_pos h

/-- A poll that finds the other level goes on waiting (R131). -/
theorem brPoll_of_ne (h : rx ≠ b.recov.expected) : brPoll rx now b = b := if_neg h

/-- A line that stayed at the awaited level starts the long delay (R132). -/
theorem brShort_of_eq (h : rx = b.recov.expected) :
    brShort rx now b = { b with recov := { b.recov with tRef := now, ph := .waitLong } } := if_pos h

/-- A line that left the awaited level is a waveform violation (R132). -/
theorem brShort_of_ne (h : rx ≠ b.recov.expected) :
    brShort rx now b = ({ b with recov := { b.recov with err := true } } : Block).abort .waveformViolation := if_neg h

/-- BR.LONG's outcome is fixed by the level of its sample alone (R134). -/
theorem brLong_eq (p : Params) (rx : Bool) (b : Block) :
    brLong p rx b =
      headerSync p (!rx ^^ b.sess.pol) { b with recov := { b.recov with expected := !rx, ph := .waitLevel } } := by
  rw [brLong, brBit_eq, brTurn, nextExpected_eq]

end

/-! ### The block's turn in each phase -/

section
variable {p : Params} {rx : Bool} {now : Micros} {b : Block}

/-- A delay that has passed has elapsed. -/
theorem delayElapsed_eq_true {delay : Nat} {since now : Micros} (h : delay ≤ (now - since).toNat) :
    delayElapsed delay since now = true := decide_eq_true h

/-- While a delay has not passed the block's turn changes nothing (R132, R133). -/
theorem blockStep_of_delay {d : Nat} (h : pendingDelay p b = some d) (hlt : (now - b.recov.tRef).toNat < d) :
    blockStep p rx now b = .ok b := by
  rw [blockStep, enabledStep_of_delay h hlt]

/-- In WAIT_LEVEL the block's turn is BR.POLL (R131). -/
theorem blockStep_waitLevel (hs : b.state = .receiving) (hp : b.recov.ph = .waitLevel) :
    blockStep p rx now b = .ok (brPoll rx now b) := by
  simp only [blockStep, enabledStep, hs, hp]

/-- In WAIT_SHORT it is BR.SHORT, once the short delay has passed (R132). -/
theorem blockStep_waitShort (hs : b.state = .receiving) (hp : b.recov.ph = .waitShort)
    (hd : p.shortDelayUs ≤ (now - b.recov.tRef).toNat) : blockStep p rx now b = .ok (brShort rx now b) := by
  simp only [blockStep, enabledStep, hs, hp, delayElapsed_eq_true hd, if_true]

/-- In WAIT_LONG it is BR.LONG, once the long delay has passed (R133). -/
theorem blockStep_waitLong (hs : b.state = .receiving) (hp : b.recov.ph = .waitLong)
    (hd : p.longDelayUs ≤ (now - b.recov.tRef).toNat) : blockStep p rx now b = brLong p rx b := by
  simp only [blockStep, enabledStep, hs, hp, delayElapsed_eq_true hd, if_true]

end

/-- Settles O24: the two samples of a poll. -/
theorem pollWaitsForLevel : Obligations.PollWaitsForLevel := by
  intro p rx now b hs hp
  rw [blockStep_waitLevel hs hp]
  exact ⟨fun h => congrArg _ (brPoll_of_eq h), fun h => congrArg _ (brPoll_of_ne h)⟩

/-- Settles O25: before the short delay has passed, and after it for the two samples. -/
theorem shortDelayCheck : Obligations.ShortDelayCheck := by
  intro p rx now b hs hp
  refine ⟨blockStep_of_delay (by simp only [pendingDelay, hs, hp]), fun hd => ?_⟩
  rw [blockStep_waitShort hs hp hd]
  exact ⟨fun h => congrArg _ (brShort_of_eq h), fun h => congrArg _ (brShort_of_ne h)⟩

/-- Settles O26: before the long delay has passed, and after it. -/
theorem longDelayEmitsBit : Obligations.LongDelayEmitsBit := by
  intro p rx now b hs hp
  refine ⟨blockStep_of_delay (by simp only [pendingDelay, hs, hp]), fun hd => ?_⟩
  rw [blockStep_waitLong hs hp hd, brLong_eq]

/-! ### The line -/

section
variable {half x : Nat}

/-- A line of symbols, `x` µs into symbol `j`: the half that `x` falls in has its level (R107, R108). -/
theorem lineLevel_at (pol : Bool) (sym : Nat → Bool) (j : Nat) (hx : x < 2 * half) :
    lineLevel half pol sym (j * (2 * half) + x) = if x < half then !(sym j ^^ pol) else sym j ^^ pol := by
  have hdiv : (j * (2 * half) + x) / (2 * half) = j := by
    rw [Nat.add_comm, Nat.add_mul_div_right x j (by omega), Nat.div_eq_of_lt hx, Nat.zero_add]
  have hmod : (j * (2 * half) + x) % (2 * half) = x := by rw [Nat.mul_add_mod', Nat.mod_eq_of_lt hx]
  simp only [lineLevel, halfLevels, hdiv, hmod, Bool.xor_true]

/-- The first half of a symbol has the inverse of its value XOR the polarity (R108). -/
theorem lineLevel_first_half (pol : Bool) (sym : Nat → Bool) (j : Nat) (hx : x < half) :
    lineLevel half pol sym (j * (2 * half) + x) = !(sym j ^^ pol) := by
  rw [lineLevel_at pol sym j (by omega), if_pos hx]

/-- The second half of a symbol has its value XOR the polarity (R108). -/
theorem lineLevel_second_half (pol : Bool) (sym : Nat → Bool) (j : Nat) (hx : half ≤ x) (hx2 : x < 2 * half) :
    lineLevel half pol sym (j * (2 * half) + x) = (sym j ^^ pol) := by
  rw [lineLevel_at pol sym j hx2, if_neg (Nat.not_lt.2 hx)]

end

/-! ### The steady state -/

/-- Settles O27: under R352 the poll and the short sample fall in the second half of symbol `k`, and the long sample in
the first half of symbol `k + 1`, whose inverse is the level awaited next. -/
theorem steadyStateDecodesNextSymbol : Obligations.SteadyStateDecodesNextSymbol := by
  intro p half eps delta k sym b hs hp hE hshort hlong hlong2 line poll first b1 b2
  have hpoll : line poll = b.recov.expected := by
    rw [hE, show poll = k * (2 * half) + (half + eps) by omega]
    exact lineLevel_second_half _ _ _ (by omega) (by omega)
  have hb1 : b1 = { b with recov := { b.recov with tRef := BitVec.ofNat 64 poll, ph := .waitShort } } :=
    brPoll_of_eq hpoll
  have hfirst : line first = b1.recov.expected := by
    rw [hb1, hE, show first = k * (2 * half) + (half + eps + p.shortDelayUs) by omega]
    exact lineLevel_second_half _ _ _ (by omega) (by omega)
  have hb2 : b2 = { b1 with recov := { b1.recov with tRef := BitVec.ofNat 64 (first + delta), ph := .waitLong } } :=
    brShort_of_eq hfirst
  have hpol : b2.sess.pol = b.sess.pol := by rw [hb2, hb1]
  have hlast : line (first + delta + p.longDelayUs) = !(sym (k + 1) ^^ b.sess.pol) := by
    have hnext : (k + 1) * (2 * half) = k * (2 * half) + 2 * half := Nat.succ_mul _ _
    rw [show first + delta + p.longDelayUs =
      (k + 1) * (2 * half) + (eps + p.shortDelayUs + delta + p.longDelayUs - half) by omega]
    exact lineLevel_first_half _ _ _ (by omega)
  refine ⟨by rw [hb1], by rw [hb2, hb1]; exact hs, by rw [hb2], ?_, fun x hx => ?_, fun x hx hx2 => ?_⟩
  · rw [brLong_eq, hlast, hpol, Bool.not_not, Bool.xor_assoc, Bool.xor_self, Bool.xor_false]
  · exact (lineLevel_first_half _ _ _ hx).trans_ne (Bool.not_ne_self _)
  · exact lineLevel_second_half _ _ _ hx hx2

end Sys2Proof.Machine
end

section
/-! PROOFS. The statements of 41_header_sync.md: one bit before the synchronization zero (R150 to R152), a preamble on
either side of the threshold (R154), one data bit (R153, R170 to R173) and the headers that cover the accepted frames
(R155). Of a turn, only the header found and the two accepts move what R155 compares; the invariant says that a header is
found at most once in an attempt, and that a frame in DECODING has its header. -/

namespace Sys2Proof.Machine

/-! ### One bit before the synchronization zero -/

/-- A zero below the threshold ends the attempt (R151). -/
theorem headerSync_zero_early {p : Params} {b : Block} (h0 : b.recov.saw0 = false)
    (hr : b.recov.run < p.headerThreshold) : headerSync p false b = .ok (b.abort .synchronizationFailure) := by
  simp [headerSync, h0, hr, hsEarlyZero]

/-- Settles O30: the rules of R150 to R152, one for each range of the run. -/
theorem headerSyncBit : Obligations.HeaderSyncBit := by
  intro p b h0 _
  refine ⟨headerSync_one_counted h0, fun hfound => ?_,
    fun hr => ⟨headerSync_one_absorbed h0 hr, headerSync_zero_sync h0 hr⟩, headerSync_zero_early h0⟩
  have hlt : b.recov.run < p.headerThreshold := BitVec.lt_def.2 (by omega)
  have hrun : b.recov.run + 1 = p.headerThreshold := BitVec.eq_of_toNat_eq (by rw [run_succ_toNat hlt, hfound])
  rw [headerSync_one_found h0 hfound, hrun]

/-! ### A preamble on either side of the threshold -/

/-- Fewer ones than the threshold asks for, and a zero: the attempt ends, with the ones counted and no header (R151,
R154). -/
theorem feedBits_short_preamble {p : Params} {b : Block} {n : Nat} (hn : n < p.headerThreshold.toNat) :
    feedBits p (List.replicate n true ++ [false]) b.attemptStart =
      .ok (({ b.attemptStart with
        recov := { Recovery.fresh b.sess.pol with run := 0 + BitVec.ofNat 8 n } } : Block).abort
          .synchronizationFailure) := by
  have hrun : (0 + BitVec.ofNat 8 n : Byte) < p.headerThreshold := by
    have := p.headerThreshold.isLt
    rw [BitVec.lt_def]
    simp
    omega
  rw [feedBits_append _ (feedBits_ones_counted rfl rfl (show 0 + n < _ by omega))]
  exact feedBits_singleton rfl (headerSync_zero_early rfl hrun)

/-- Settles O31: the two preambles, below the threshold and from it on. -/
theorem thresholdBoundary : Obligations.ThresholdBoundary := by
  intro p n b hp
  exact ⟨fun hn => ⟨_, feedBits_short_preamble hn, rfl, rfl, rfl⟩,
    fun hn => ⟨_, feedBits_preamble hp hn, rfl, rfl, rfl, rfl, rfl, rfl⟩⟩

/-! ### One data bit -/

/-- A data bit to a full frame is a fault (R69, I1). -/
theorem headerSync_data_full {p : Params} {b : Block} {bit : Bool} (h0 : b.recov.saw0 = true)
    (hfull : b.frame.target.bytes ≤ b.frame.filled.toNat) : headerSync p bit b = .error .bitPastTarget := by
  rw [headerSync, if_pos h0, hsData, accumulate, if_neg]
  rw [RawFrame.hasRoom_iff]
  exact Nat.not_lt.2 hfull

/-- The family flag and the target after a completed byte: the byte that finds one completed decides an undecided
family, by itself and the session (R172). -/
theorem RawFrame.complete_family_eq (p : Params) (a : Bool) (byte : Byte) (f : RawFrame) :
    (f.complete p a byte).famDecided = (f.famDecided || decide (f.filled = 1)) ∧
      (f.complete p a byte).target =
        (if f.filled = 1 ∧ f.famDecided = false ∧ a = true ∧ byte = p.longSig then .long else f.target) := by
  have hsecond : f.filled + 1 = 2 ↔ f.filled = 1 := by bv_omega
  obtain ⟨hfill, hd, hd', ht⟩ | ⟨hn, hd', ht⟩ := f.complete_family p a byte
  · have h1 : f.filled = 1 := hsecond.1 hfill
    have hbyte : (f.raw.setIfInBounds f.filled.toNat byte)[1] = byte := by simp [h1]
    rw [hd', ht, hbyte]
    simp [h1, hd]
  · rw [hsecond] at hn
    have hnot : ¬(f.filled = 1 ∧ f.famDecided = false ∧ a = true ∧ byte = p.longSig) := fun h => hn ⟨h.1, h.2.1⟩
    rw [hd', ht, if_neg hnot]
    refine ⟨?_, rfl⟩
    cases hf : f.famDecided with
    | true => rfl
    | false => simpa using fun h1 => hn ⟨h1, hf⟩

/-- Settles O32: a bit is shifted in, completes a byte, or finds the frame full. -/
theorem dataBitAccumulates : Obligations.DataBitAccumulates := by
  intro p bit b h0 acc
  refine ⟨fun hnb hroom => headerSync_data_shift h0 hroom hnb, fun hnb hroom => ?_, headerSync_data_full h0⟩
  have hsucc := RawFrame.filled_succ_toNat hroom
  obtain ⟨hdecided, htarget⟩ := b.frame.complete_family_eq p b.sess.accLong acc
  refine ⟨_, (headerSync_data_byte h0 hroom hnb).trans (congrArg Except.ok (completeByte_eq _)), rfl,
    RawFrame.complete_acc .., RawFrame.complete_nb .., ?_, fun i => ?_, hdecided, htarget, ?_⟩
  · rw [RawFrame.complete_filled, hsucc]
  · rw [RawFrame.complete_getElem]
    exact if_congr eq_comm rfl rfl
  · rw [RawFrame.complete_filled]

/-! ### The headers that cover the accepted frames -/

section
variable {p : Params} {b t : Block}

/-- Within an attempt whose preamble is over a header is pending (R53). -/
theorem Block.pendingHeader_eq_one (ha : b.inAttempt = true) (hpre : b.recov.inPre = false) : b.pendingHeader = 1 :=
  if_pos ⟨ha, hpre⟩

/-- Outside an attempt no header is pending. -/
theorem Block.pendingHeader_of_not_inAttempt (ha : b.inAttempt = false) : b.pendingHeader = 0 :=
  if_neg fun h => Bool.false_ne_true (ha.symm.trans h.1)

/-- In the preamble no header is pending. -/
theorem Block.pendingHeader_of_inPre (hpre : b.recov.inPre = true) : b.pendingHeader = 0 :=
  if_neg fun h => Bool.false_ne_true (h.2.symm.trans hpre)

/-- At most one header is pending. -/
theorem Block.pendingHeader_le_one (b : Block) : b.pendingHeader ≤ 1 := by
  unfold Block.pendingHeader
  split <;> decide

/-- A header pending only where one was pending before: the number pending has not grown. -/
theorem Block.pendingHeader_le
    (h : t.inAttempt = true → t.recov.inPre = false → b.inAttempt = true ∧ b.recov.inPre = false) :
    t.pendingHeader ≤ b.pendingHeader := by
  by_cases ht : t.inAttempt = true ∧ t.recov.inPre = false
  · obtain ⟨ha, hpre⟩ := h ht.1 ht.2
    rw [Block.pendingHeader_eq_one ha hpre]
    exact t.pendingHeader_le_one
  · rw [show t.pendingHeader = 0 from if_neg ht]
    exact Nat.zero_le _

/-- Where nothing is counted and no header becomes pending, the frames stay covered. -/
theorem Block.HeadersCover.of_pending_le (h : b.HeadersCover) (hc : t.cnt = b.cnt)
    (hp : t.pendingHeader ≤ b.pendingHeader) : t.HeadersCover := by
  unfold Block.HeadersCover at h ⊢
  rw [hc]
  omega

/-- A header found where none was pending is counted and becomes pending, unless the counter wraps (R150). -/
theorem Block.HeadersCover.header (h : b.HeadersCover) (hwrap : b.cnt.headers ≠ 0xFFFFFFFF)
    (hp : b.pendingHeader = 0) (hc : t.cnt = { b.cnt with headers := b.cnt.headers + 1 }) : t.HeadersCover := by
  have hsucc : (b.cnt.headers + 1).toNat = b.cnt.headers.toNat + 1 := by bv_omega
  have hle := t.pendingHeader_le_one
  unfold Block.HeadersCover at h ⊢
  rw [hc]
  dsimp only
  omega

/-- An accepted frame, counted in one family's counter, takes the place of the pending header (R259). -/
theorem Block.HeadersCover.frame (h : b.HeadersCover) (hb : b.pendingHeader = 1) (ht : t.pendingHeader = 0)
    (hc : t.cnt = { b.cnt with short := b.cnt.short + 1 } ∨ t.cnt = { b.cnt with long := b.cnt.long + 1 }) :
    t.HeadersCover := by
  have hle : ∀ x : Word, (x + 1).toNat ≤ x.toNat + 1 := fun x => by
    rw [BitVec.toNat_add]
    exact Nat.mod_le _ _
  have hshort := hle b.cnt.short
  have hlong := hle b.cnt.long
  unfold Block.HeadersCover at h ⊢
  obtain hc | hc := hc <;> rw [hc, ht] <;> dsimp only <;> omega

/-- Under the invariant a frame in DECODING has its header pending (R152, R255). -/
theorem Block.InvParts.pendingHeader_of_decoding {now : Micros} (h : b.InvParts p now) (hs : b.state = .decoding) :
    b.pendingHeader = 1 := by
  obtain ⟨-, -, hsaw⟩ := h.ctl.full hs
  have hpre : b.recov.inPre = false := by
    rw [h.recov.inPre_eq, h.recov.run_of_saw0 hsaw]
    exact decide_eq_false (BitVec.lt_irrefl _)
  exact Block.pendingHeader_eq_one (b.inAttempt_iff.2 (.inr hs)) hpre

/-- A turn of the block leaves the frames covered, unless the header counter wraps. -/
theorem BlockMove.headersCover {rx : Bool} {now : Micros} (h : b.InvParts p now) (hcov : b.HeadersCover)
    (hwrap : b.cnt.headers ≠ 0xFFFFFFFF) (hm : BlockMove p rx now b t) : t.HeadersCover := by
  cases hm with
  | stay => exact hcov
  | timeout | attempt | violation | earlyZero | reject =>
    exact hcov.of_pending_le rfl (Block.pendingHeader_le nofun)
  | poll hs | stable hs | absorbedOne hs | countedOne hs | sync hs | shift hs | byte hs =>
    exact hcov.of_pending_le rfl
      (Block.pendingHeader_le fun _ hpre => ⟨b.inAttempt_iff.2 (.inl hs), hpre⟩)
  | headerFound _ _ _ _ _ hr =>
    have hpre : b.recov.inPre = true := h.recov.inPre_eq.trans (decide_eq_true hr)
    exact hcov.header hwrap (Block.pendingHeader_of_inPre hpre) rfl
  | acceptShort hs =>
    exact hcov.frame (h.pendingHeader_of_decoding hs) (Block.pendingHeader_of_not_inAttempt rfl) (.inl rfl)
  | acceptLong hs =>
    exact hcov.frame (h.pendingHeader_of_decoding hs) (Block.pendingHeader_of_not_inAttempt rfl) (.inr rfl)

end

/-- Every change of the block outside reset leaves the frames covered, unless the header counter wraps. -/
theorem BlockChange.headersCover {s : State} {t : Block} (hinv : s.blk.Inv Config.params s.now)
    (hcov : s.blk.HeadersCover) (hwrap : s.blk.cnt.headers ≠ 0xFFFFFFFF) (hc : BlockChange s t) : t.HeadersCover := by
  cases hc with
  | same | deadline | rejected | session | snapshot => exact hcov
  | misuse | request => exact hcov.of_pending_le rfl (Block.pendingHeader_le nofun)
  | turn _ _ _ hm => exact hm.headersCover hinv.parts hcov hwrap
  | reset => exact resetMeetsInvariant.2

/-- Settles O54, from the changes of the block and the reset. -/
theorem headersCoverAcceptedFrames : Obligations.HeadersCoverAcceptedFrames := by
  intro s t hs hcov hwrap h
  cases hr : s.rst with
  | false => exact (step_blockChange hr h).2.headersCover hs.blk hcov hwrap
  | true => exact step_blk_of_rst h (.inl hr) ▸ resetMeetsInvariant.2

end Sys2Proof.Machine
end

section
/-! PROOFS. The statements of 43_short_decoder.md: the order of the checks (R190, R191, R197, R199), the published reading
(R192 to R197, R200), the bytes that nothing reads (R196) and the checksum (R198, R199). The mask of the checksum moves by
an injective map that is linear over exclusive or, so a byte contributes the same up to that map wherever it stands, and
what the checksum detects at one position it detects at every position. -/

namespace Sys2Proof.Machine

/-! ### The mask's step is linear and injective -/

/-- A linear map that takes 0 alone to 0 is injective. -/
theorem injective_of_xor {f : Byte → Byte} (hxor : ∀ v w, f (v ^^^ w) = f v ^^^ f w) (hzero : ∀ v, f v = 0 → v = 0) :
    Function.Injective f := by
  intro v w h
  refine BitVec.xor_eq_zero_iff.1 (hzero _ ?_)
  rw [hxor, h]
  exact BitVec.xor_self

/-- A conditional exclusive or with `m` is linear: `m` stays where exactly one condition holds. -/
theorem ite_xor_ite (u v : Bool) (a b m : Byte) :
    (if xor u v then a ^^^ b ^^^ m else a ^^^ b) = (if u then a ^^^ m else a) ^^^ (if v then b ^^^ m else b) := by
  cases u <;> cases v
  case false.false => rfl
  case false.true => exact BitVec.xor_assoc a b m
  case true.false => show a ^^^ b ^^^ m = a ^^^ m ^^^ b; ac_rfl
  case true.true =>
    calc a ^^^ b = a ^^^ b ^^^ (m ^^^ m) := by rw [BitVec.xor_self, BitVec.xor_zero]
      _ = a ^^^ m ^^^ (b ^^^ m) := by ac_rfl

/-- The rotation is linear over exclusive or. -/
theorem ror8_xor (v w : Byte) : ror8 (v ^^^ w) = ror8 v ^^^ ror8 w := by
  simp only [ror8, BitVec.extractLsb'_xor]
  exact BitVec.xor_append.symm

/-- The mask's step is linear over exclusive or. -/
theorem maskStep_xor (v w : Byte) : maskStep (v ^^^ w) = maskStep v ^^^ maskStep w := by
  unfold maskStep
  rw [BitVec.getLsbD_xor, ror8_xor]
  exact ite_xor_ite ..

/-- The mask's step loses nothing. -/
theorem maskStep_injective : Function.Injective maskStep := injective_of_xor maskStep_xor (by decide)

/-! ### The checksum of one byte and of a list -/

/-- What one byte adds to the sum from the mask `m`: the checksum of that byte alone. -/
def byteSum (m v : Byte) : Byte := checksumWith m 0 [v]

/-- One data bit commutes with the mask's step. -/
theorem chkBit_map_maskStep (bit : Bool) (ms : Byte × Byte) :
    chkBit bit (ms.map maskStep maskStep) = (chkBit bit ms).map maskStep maskStep := by
  cases bit <;> simp [chkBit, maskStep_xor]

/-- A later mask gives a later sum: the mask's step passes through the sum of a byte. -/
theorem byteSum_maskStep (m v : Byte) : byteSum (maskStep m) v = maskStep (byteSum m v) :=
  congrArg Prod.snd (List.foldl_hom (Prod.map maskStep maskStep) (g₁ := fun ms bit => chkBit bit ms)
    (g₂ := fun ms bit => chkBit bit ms) (init := (m, 0)) fun ms bit => chkBit_map_maskStep bit ms)

/-- As `byteSum_maskStep`, for `n` steps of the mask. -/
theorem byteSum_iterate (n : Nat) (m v : Byte) : byteSum (maskStep^[n] m) v = maskStep^[n] (byteSum m v) := by
  induction n generalizing m with
  | zero => rfl
  | succ n ih => rw [Function.iterate_succ_apply, ih, byteSum_maskStep, Function.iterate_succ_apply]

/-- The checksum of a list is the sum of its first byte and the checksum of the rest from the mask eight steps on. -/
theorem checksumWith_cons (m a v : Byte) (rest : List Byte) :
    checksumWith m a (v :: rest) = a ^^^ byteSum m v ^^^ checksumWith (maskStep^[8] m) 0 rest := by
  have hv : chkBits (bitsMsbFirst v) (m, a) = (maskStep^[8] m, a ^^^ byteSum m v) :=
    Prod.ext (chkBits_mask _ _ _) ((chkBits_acc _ _ _).trans (by simp [byteSum, checksumWith]))
  calc checksumWith m a (v :: rest)
      = (chkBits (rest.flatMap bitsMsbFirst) (chkBits (bitsMsbFirst v) (m, a))).2 := by
        simp only [checksumWith, chkBits, List.flatMap_cons, List.foldl_append]
    _ = checksumWith (maskStep^[8] m) (a ^^^ byteSum m v) rest := by rw [hv, checksumWith]
    _ = _ := checksumWith_acc _ _ _

/-- Whether a change of one byte is detected does not depend on its position, nor on the other bytes. -/
theorem checksumWith_set_eq_iff (m a : Byte) (data : List Byte) (i : Nat) (v : Byte) (hi : i < data.length) :
    checksumWith m a (data.set i v) = checksumWith m a data ↔ byteSum m v = byteSum m (data.getD i 0) := by
  induction data generalizing m a i with
  | nil => cases hi
  | cons x xs ih =>
    cases i with
    | zero =>
      rw [List.set_cons_zero, checksumWith_cons, checksumWith_cons, BitVec.xor_left_inj, BitVec.xor_right_inj,
        List.getD_cons_zero]
    | succ i =>
      rw [List.set_cons_succ, checksumWith_cons, checksumWith_cons, BitVec.xor_right_inj,
        ih _ _ _ (Nat.lt_of_succ_lt_succ hi), byteSum_iterate, byteSum_iterate,
        (maskStep_injective.iterate 8).eq_iff, List.getD_cons_succ]

/-- The sum is linear in the data bits and the seed together. -/
theorem chkBits_xor (us vs : List Bool) (m a b : Byte) (h : us.length = vs.length) :
    (chkBits (List.zipWith xor us vs) (m, a ^^^ b)).2 = (chkBits us (m, a)).2 ^^^ (chkBits vs (m, b)).2 := by
  induction us generalizing vs m a b with
  | nil => rw [List.length_eq_zero_iff.1 h.symm]; rfl
  | cons u us ih =>
    cases vs with
    | nil => cases h
    | cons v vs =>
      have hbit : chkBit (xor u v) (m, a ^^^ b) = (maskStep m, (chkBit u (m, a)).2 ^^^ (chkBit v (m, b)).2) :=
        Prod.ext rfl (ite_xor_ite u v a b (maskStep m))
      exact (congrArg (fun ms => (chkBits (List.zipWith xor us vs) ms).2) hbit).trans
        (ih vs _ _ _ (Nat.succ.inj h))

/-- The sum of a byte is linear in the byte. -/
theorem byteSum_xor (m v w : Byte) : byteSum m (v ^^^ w) = byteSum m v ^^^ byteSum m w := by
  have hbits : bitsMsbFirst (v ^^^ w) = List.zipWith xor (bitsMsbFirst v) (bitsMsbFirst w) := by
    simp [bitsMsbFirst]
  simpa [byteSum, checksumWith, hbits] using chkBits_xor (bitsMsbFirst v) (bitsMsbFirst w) m 0 0 rfl

/-- From a candidate's mask the eight masks of a byte are independent: different bytes have different sums (R7, R199). -/
theorem byteSum_injective {m : Byte} (hm : m = 0x64 ∨ m = 0x7C) : Function.Injective (byteSum m) := by
  refine injective_of_xor (byteSum_xor m) ?_
  rcases hm with rfl | rfl <;> decide

/-- Settles O38: a changed byte changes its own sum, and so the checksum. -/
theorem singleByteCorruptionDetected : Obligations.SingleByteCorruptionDetected := by
  intro m data i v hm hlen hi hv hsum
  exact hv (byteSum_injective hm ((checksumWith_set_eq_iff _ _ _ _ _ (hlen ▸ hi)).1 hsum))

/-- Settles O37: the accumulator seed cancels what the sample packet adds to it. -/
theorem sampleChecksum : Obligations.SampleChecksum := by
  refine ⟨fun m => ?_, by decide, by decide⟩
  calc checksumShort m sampleBytes
      = 0x52 ^^^ checksumWith m 0 sampleBytes ^^^ checksumWith m 0 sampleBytes := checksumWith_acc _ _ _
    _ = 0x52 := by rw [BitVec.xor_assoc, BitVec.xor_self, BitVec.xor_zero]

/-! ### The decoder's answers -/

section
variable {p : Params} {rx : Bool} {now : Micros} {b : Block}

/-- In DECODING the block's turn on a 7-byte frame is the short decoder (R255). -/
theorem blockStep_shortDecode (hs : b.state = .decoding) (ht : b.frame.target = .short) :
    blockStep p rx now b = .ok (shortDecode p b) := by
  simp only [blockStep, enabledStep, hs, csDecode, ht]

/-- The humidity's bound as a number (R197). -/
theorem humMax_lt_iff (raw : Vector Byte 16) : Config.humMax < sdHumidity raw ↔ 100 < raw[5].toNat := BitVec.lt_def

/-- The session does not accept the family, or the type byte is another (R190). -/
theorem shortDecode_unrecognized (h : b.sess.accShort = false ∨ b.frame.raw[1] ≠ Config.shortSig) :
    shortDecode p b = b.abort .unrecognizedFamily := if_pos h

/-- Once the family is accepted the decoder goes on to the checksum and the humidity (R191). -/
theorem shortDecode_recognized (ha : b.sess.accShort = true) (h1 : b.frame.raw[1] = Config.shortSig) :
    shortDecode p b =
      if checksumShort p.chkMaskSeed (checkedBytes b.frame.raw) ≠ b.frame.raw[6] then b.abort .checksumMismatch
      else if Config.humMax < sdHumidity b.frame.raw then b.abort .rangeViolation
      else sdAccept b := if_neg (by simp [ha, h1])

/-- The checksum differs from byte 6 (R199). -/
theorem shortDecode_checksumMismatch (ha : b.sess.accShort = true) (h1 : b.frame.raw[1] = Config.shortSig)
    (hc : checksumShort p.chkMaskSeed (checkedBytes b.frame.raw) ≠ b.frame.raw[6]) :
    shortDecode p b = b.abort .checksumMismatch := by
  rw [shortDecode_recognized ha h1, if_pos hc]

/-- The checksum agrees and the humidity is above its bound (R197). -/
theorem shortDecode_rangeViolation (ha : b.sess.accShort = true) (h1 : b.frame.raw[1] = Config.shortSig)
    (hc : checksumShort p.chkMaskSeed (checkedBytes b.frame.raw) = b.frame.raw[6]) (hh : 100 < b.frame.raw[5].toNat) :
    shortDecode p b = b.abort .rangeViolation := by
  rw [shortDecode_recognized ha h1, if_neg (not_not.2 hc), if_pos ((humMax_lt_iff _).2 hh)]

/-- All three checks pass (R200). -/
theorem shortDecode_accept (ha : b.sess.accShort = true) (h1 : b.frame.raw[1] = Config.shortSig)
    (hc : checksumShort p.chkMaskSeed (checkedBytes b.frame.raw) = b.frame.raw[6]) (hh : b.frame.raw[5].toNat ≤ 100) :
    shortDecode p b = sdAccept b := by
  rw [shortDecode_recognized ha h1, if_neg (not_not.2 hc), if_neg (mt (humMax_lt_iff _).1 (Nat.not_lt.2 hh))]

end

/-- Settles O35: the aborts of the short decoder, in order. -/
theorem shortChecksInOrder : Obligations.ShortChecksInOrder := by
  intro p rx now b hs ht
  rw [blockStep_shortDecode hs ht]
  exact ⟨fun h => congrArg _ (shortDecode_unrecognized h),
    fun ha h1 hc => congrArg _ (shortDecode_checksumMismatch ha h1 hc),
    fun ha h1 hc hh => congrArg _ (shortDecode_rangeViolation ha h1 hc hh)⟩

/-! ### The fields of a reading -/

/-- RES_SHORT0.BATTERY_LOW holds the battery flag. -/
theorem batteryField_sdWord0 (raw : Vector Byte 16) : batteryField (sdWord0 raw) = sdBatteryLow raw := by
  unfold batteryField sdWord0
  rw [BitVec.getLsbD_append, BitVec.getLsbD_append, BitVec.getLsbD_append]
  simp

/-- RES_SHORT0.ID holds byte 2. -/
theorem idField_sdWord0 (raw : Vector Byte 16) : idField (sdWord0 raw) = sdId raw := by
  unfold idField sdWord0
  simp (disch := decide) only [BitVec.extractLsb'_append_eq_of_le, BitVec.extractLsb'_append_eq_of_add_le]
  exact BitVec.extractLsb'_eq_self

/-- RES_SHORT0.TEMP_RAW holds the raw temperature. -/
theorem tempRawField_sdWord0 (raw : Vector Byte 16) : tempRawField (sdWord0 raw) = sdTempRaw raw := by
  unfold tempRawField sdWord0
  simp (disch := decide) only [BitVec.extractLsb'_append_eq_of_le, BitVec.extractLsb'_append_eq_of_add_le]
  exact BitVec.extractLsb'_eq_self

/-- The bits of RES_SHORT0 outside its fields are 0. -/
theorem sdWord0_unused (raw : Vector Byte 16) :
    (sdWord0 raw).extractLsb' 4 3 = 0 ∧ (sdWord0 raw).extractLsb' 28 4 = 0 := by
  unfold sdWord0
  simp (disch := decide) only [BitVec.extractLsb'_append_eq_of_le, BitVec.extractLsb'_append_eq_of_add_le]
  decide

/-- RES_SHORT1.TEMP_F10 holds the temperature. -/
theorem tempF10Field_sdWord1 (raw : Vector Byte 16) : tempF10Field (sdWord1 raw) = sdTempF10 raw := by
  unfold tempF10Field sdWord1
  rw [BitVec.extractLsb'_append_eq_of_add_le (by decide)]
  exact BitVec.extractLsb'_eq_self

/-- RES_SHORT1.CHECKSUM holds byte 6. -/
theorem checksumField_sdWord1 (raw : Vector Byte 16) : checksumField (sdWord1 raw) = raw[6] := by
  unfold checksumField sdWord1
  simp (disch := decide) only [BitVec.extractLsb'_append_eq_of_le]
  exact BitVec.extractLsb'_eq_self

/-- The channel as a number of bits 4 to 6 of byte 3 (R192). -/
theorem sdChannel_toNat_div (raw : Vector Byte 16) : (sdChannel raw).toNat = raw[3].toNat / 16 % 8 + 1 := by
  rw [sdChannel_toNat, BitVec.extractLsb'_toNat, Nat.shiftRight_eq_div_pow]

/-- The raw temperature as a number: the low half of byte 3 above byte 4 (R194). -/
theorem sdTempRaw_toNat (raw : Vector Byte 16) :
    (sdTempRaw raw).toNat = raw[3].toNat % 16 * 256 + raw[4].toNat := by
  unfold sdTempRaw
  rw [BitVec.toNat_append, ← Nat.shiftLeft_add_eq_or_of_lt raw[4].isLt, Nat.shiftLeft_eq, BitVec.extractLsb'_toNat,
    Nat.shiftRight_zero]

/-- The temperature does not wrap: it is the raw temperature less 400, below 0 too (R195). -/
theorem sdTempF10_toInt (raw : Vector Byte 16) :
    (sdTempF10 raw).toInt = (raw[3].toNat % 16 * 256 + raw[4].toNat : Int) - 400 := by
  have hraw := sdTempRaw_toNat raw
  have hlt := (sdTempRaw raw).isLt
  have hwide : ((sdTempRaw raw).setWidth 16).toInt = (sdTempRaw raw).toNat := by
    rw [BitVec.toInt_setWidth, Int.bmod_eq_of_le (by omega) (by omega)]
  have hoffset : Config.tempOffset.toInt = 400 := by decide
  rw [sdTempF10, BitVec.toInt_sub, hwide, hoffset, Int.bmod_eq_of_le (by omega) (by omega)]
  omega

/-- Settles O36: the accept publishes the reading, and its registers hold these fields. -/
theorem shortFramePublished : Obligations.ShortFramePublished := by
  intro p rx now b hs ht ha h1 hc hh
  refine ⟨sdAccept b, (blockStep_shortDecode hs ht).trans (congrArg _ (shortDecode_accept ha h1 hc hh)),
    rfl, rfl, rfl, ?_⟩
  have hseq : b.cnt.short + 1 + b.cnt.long = b.cnt.short + b.cnt.long + 1 := by ac_rfl
  refine ⟨hseq, ?_, batteryField_sdWord0 _, idField_sdWord0 _, ?_, (sdWord0_unused _).1, (sdWord0_unused _).2, ?_,
    humidityField_sdWord1 _, checksumField_sdWord1 _, rfl, rfl, rfl, rfl⟩
  · exact (congrArg _ (channelField_sdWord0 _)).trans (sdChannel_toNat_div _)
  · exact (congrArg _ (tempRawField_sdWord0 _)).trans (sdTempRaw_toNat _)
  · exact (congrArg _ (tempF10Field_sdWord1 _)).trans (sdTempF10_toInt _)

/-! ### What the decoder does not read -/

/-- The short decoder reads bytes 1 to 6 of the frame alone (R190 to R200). -/
theorem shortDecode_withRaw (p : Params) {b : Block} {raw : Vector Byte 16}
    (h : ∀ i : Fin 16, 1 ≤ i.val → i.val ≤ 6 → raw[i] = b.frame.raw[i]) :
    shortDecode p (b.withRaw raw) = (shortDecode p b).withRaw raw := by
  have h1 : raw[1] = b.frame.raw[1] := h 1 (by decide) (by decide)
  have h2 : raw[2] = b.frame.raw[2] := h 2 (by decide) (by decide)
  have h3 : raw[3] = b.frame.raw[3] := h 3 (by decide) (by decide)
  have h4 : raw[4] = b.frame.raw[4] := h 4 (by decide) (by decide)
  have h5 : raw[5] = b.frame.raw[5] := h 5 (by decide) (by decide)
  have h6 : raw[6] = b.frame.raw[6] := h 6 (by decide) (by decide)
  have hchecked : checkedBytes raw = checkedBytes b.frame.raw := by simp only [checkedBytes, h1, h2, h3, h4, h5]
  have hhum : sdHumidity raw = sdHumidity b.frame.raw := h5
  have hreading (cnt : Counters) : shortReading cnt raw = shortReading cnt b.frame.raw := by
    simp only [shortReading, sdWord0, sdWord1, sdTempF10, sdTempRaw, sdId, sdBatteryLow, sdChannel, h2, h3, h4,
      hhum, h6]
  have haccept : sdAccept (b.withRaw raw) = (sdAccept b).withRaw raw := by
    simp only [sdAccept, Block.withRaw_frame, Block.withRaw_cnt, hreading]
    rfl
  simp only [shortDecode, Block.withRaw_sess, Block.withRaw_frame, h1, h6, hchecked, hhum, haccept]
  split_ifs <;> rfl

/-- Settles O39: the turn is the short decoder's on both frames. -/
theorem shortFrameByteZeroUnread : Obligations.ShortFrameByteZeroUnread := by
  intro p rx now b raw hs ht hraw
  refine ⟨shortDecode p b, blockStep_shortDecode hs ht, ?_⟩
  rw [← shortDecode_withRaw p hraw]
  exact blockStep_shortDecode (b := b.withRaw raw) hs ht

end Sys2Proof.Machine
end

section
/-! PROOFS. The statements of 44_long_decoder.md: the realigned payload (R221, R222), the CRC's verdict (R223, R224), the
published reading (R225) and the bits that nothing reads (R226). The decoder reads the frame through its payload alone, and
the payload's bytes are made of the low halves of `raw[1..14]` and the high halves of `raw[2..15]`. -/

namespace Sys2Proof.Machine

/-! ### The payload -/

/-- Two joined halves as a number: a low half above a high half (R221). -/
theorem joinNibbles_toNat (hi lo : Byte) : (joinNibbles hi lo).toNat = hi.toNat % 16 * 16 + lo.toNat / 16 := by
  have hlo : lo.toNat / 16 % 16 = lo.toNat / 16 := Nat.mod_eq_of_lt (by omega)
  unfold joinNibbles
  rw [BitVec.toNat_append, ← Nat.shiftLeft_add_eq_or_of_lt (BitVec.isLt _), Nat.shiftLeft_eq, BitVec.extractLsb'_toNat,
    BitVec.extractLsb'_toNat, Nat.shiftRight_zero, Nat.shiftRight_eq_div_pow]
  exact congrArg _ hlo

/-- Payload byte `j` joins `raw[j + 1]` and `raw[j + 2]` (R221, R222). -/
theorem payload_getElem (raw : Vector Byte 16) (j : Nat) (hj : j < 14) :
    (payload raw)[j] = joinNibbles raw[j + 1] raw[j + 2] :=
  match j, hj with
  | 0, _ | 1, _ | 2, _ | 3, _ | 4, _ | 5, _ | 6, _ | 7, _ | 8, _ | 9, _ | 10, _ | 11, _ | 12, _ | 13, _ => rfl

/-- Settles O40: the number of two joined halves. -/
theorem payloadRealigned : Obligations.PayloadRealigned := by
  intro raw j
  calc (payload raw)[j].toNat
      = (joinNibbles raw[j.val + 1] raw[j.val + 2]).toNat := congrArg _ (payload_getElem raw j.val j.isLt)
    _ = _ := joinNibbles_toNat _ _

/-! ### The decoder's answers -/

section
variable {p : Params} {rx : Bool} {now : Micros} {b : Block}

/-- In DECODING the block's turn on a 16-byte frame is the long decoder (R255). -/
theorem blockStep_longDecode (hs : b.state = .decoding) (ht : b.frame.target = .long) :
    blockStep p rx now b = .ok (longDecode p b) := by
  simp only [blockStep, enabledStep, hs, csDecode, ht]

/-- The CRC differs from `P[13]` (R224). -/
theorem longDecode_crcMismatch (hc : payloadCrc p.crcTable (payload b.frame.raw) ≠ (payload b.frame.raw)[13]) :
    longDecode p b = b.abort .crcMismatch := if_pos hc

/-- The CRC agrees with `P[13]` (R225). -/
theorem longDecode_accept (hc : payloadCrc p.crcTable (payload b.frame.raw) = (payload b.frame.raw)[13]) :
    longDecode p b = ldAccept (payload b.frame.raw) b := if_neg (not_not.2 hc)

end

/-- Settles O41: the abort of the long decoder. -/
theorem longCrcMismatchRejected : Obligations.LongCrcMismatchRejected := by
  intro p rx now b hs ht hc
  exact (blockStep_longDecode hs ht).trans (congrArg _ (longDecode_crcMismatch hc))

/-- The upper half of RES_LONG3, which holds two payload bytes alone, is 0 (R43). -/
theorem packWord_upper_zero (b0 b1 : Byte) : (packWord b0 b1 0 0).extractLsb' 16 16 = 0 := by
  unfold packWord
  simp (disch := decide) only [BitVec.extractLsb'_append_eq_of_le]
  decide

/-- Settles O42: the accept publishes the reading, and its registers hold the payload. -/
theorem longFramePublished : Obligations.LongFramePublished := by
  intro p rx now b hs ht hc
  have hseq : b.cnt.short + (b.cnt.long + 1) = b.cnt.short + b.cnt.long + 1 := by ac_rfl
  exact ⟨ldAccept (payload b.frame.raw) b, (blockStep_longDecode hs ht).trans (congrArg _ (longDecode_accept hc)),
    rfl, rfl, rfl, hseq, longReading_byte rfl, packWord_upper_zero _ _, rfl, rfl⟩

/-! ### What the decoder does not read -/

/-- The payload is made of the low halves of `raw[1..14]` and the high halves of `raw[2..15]` (R221, R226). -/
theorem payload_congr {raw raw' : Vector Byte 16}
    (hlow : ∀ i : Fin 16, 1 ≤ i.val → i.val ≤ 14 → raw[i].extractLsb' 0 4 = raw'[i].extractLsb' 0 4)
    (hhigh : ∀ i : Fin 16, 2 ≤ i.val → raw[i].extractLsb' 4 4 = raw'[i].extractLsb' 4 4) :
    payload raw = payload raw' := by
  refine Vector.ext fun j hj => ?_
  have hl : raw[j + 1].extractLsb' 0 4 = raw'[j + 1].extractLsb' 0 4 :=
    hlow ⟨j + 1, by omega⟩ (Nat.le_add_left 1 j) (Nat.succ_le_of_lt hj)
  have hh : raw[j + 2].extractLsb' 4 4 = raw'[j + 2].extractLsb' 4 4 :=
    hhigh ⟨j + 2, by omega⟩ (Nat.le_add_left 2 j)
  rw [payload_getElem, payload_getElem, joinNibbles, joinNibbles, hl, hh]

/-- The long decoder reads the frame through its payload alone (R221 to R225). -/
theorem longDecode_withRaw (p : Params) {b : Block} {raw : Vector Byte 16} (h : payload raw = payload b.frame.raw) :
    longDecode p (b.withRaw raw) = (longDecode p b).withRaw raw := by
  simp only [longDecode, Block.withRaw_frame, h]
  split_ifs <;> rfl

/-- Settles O43: the payloads agree, and the turn is the long decoder's on both frames. -/
theorem longFrameUncoveredBits : Obligations.LongFrameUncoveredBits := by
  intro p rx now b raw hs ht h1 hmid h15
  have hpayload : payload raw = payload b.frame.raw := by
    refine payload_congr (fun i hi1 hi14 => ?_) (fun i hi2 => ?_)
    · obtain rfl | hi2 : i = 1 ∨ 2 ≤ i.val := by omega
      · exact h1
      · rw [hmid i hi2 hi14]
    · obtain rfl | hi14 : i = 15 ∨ i.val ≤ 14 := by omega
      · exact h15
      · rw [hmid i hi2 hi14]
  refine ⟨longDecode p b, blockStep_longDecode hs ht, ?_⟩
  rw [← longDecode_withRaw p hpayload]
  exact blockStep_longDecode (b := b.withRaw raw) hs ht

end Sys2Proof.Machine
end

section
/-! PROOFS. The statements of 45_session_controller.md: the events that are no host access (R250, R31, R32, R340), the
transitions of the controller (R250), the deadline test (R252), the states that wait for the host (R260), and what no step
reads: the deadline inside an attempt (R253, R262) and the recorded outcome of an attempt (R256, R313). The last two have
one proof. A relation between blocks that agree on what a turn inside an attempt reads, and that stay related when the same
is written to both (`AttemptBlind`), is kept by every such turn; each of the two statements gives its own relation. -/

namespace Sys2Proof.Machine

/-! ### A step that serves the block's turn, the time or `rst` -/

section
variable {s : State}

/-- Outside reset a step serves the block's turn at the present time (R250). -/
theorem step_block {rx : Bool} (hr : s.rst = false) (hl : s.blk.lawful Config.params = true)
    (he : s.nextEvent = .block rx) : step s = ofBlock s.consume (blockStep Config.params rx s.now s.blk) := by
  rw [step_of_lawful_running hr hl, he]
  simp only [serve, State.consume_now, State.consume_blk]

/-- Outside reset a step serves a time event by moving the time alone (R32). -/
theorem step_time {t : Micros} (hr : s.rst = false) (hl : s.blk.lawful Config.params = true)
    (he : s.nextEvent = .time t) :
    step s = .next { s.consume with now := timeAfter Config.params t s.now s.blk } := by
  rw [step_of_lawful_running hr hl, he]
  simp only [serve, State.consume_now, State.consume_blk]

/-- A step that drives `rst` to 0 leaves what was held (R340). -/
theorem step_rst_false (hl : s.held.blk.lawful Config.params = true) (he : s.nextEvent = .rst false) :
    step s = .next { s.held.consume with rst := false } := by
  rw [step_of_lawful hl, he]
  rfl

end

/-- Asserting `rst` leaves nothing of the block, so it does not matter whether the block was held before (R340). -/
theorem State.held_consume_reset (s : State) :
    ({ s.held.consume with rst := true, blk := Block.reset } : State) =
      { s.consume with rst := true, blk := Block.reset } := by
  unfold State.held
  split
  · rw [State.consume_withBlk]
  · rfl

/-- Settles O59: the four kinds of events, one by one. -/
theorem stepServesBlockTimeAndReset : Obligations.StepServesBlockTimeAndReset := by
  refine ⟨fun s rx hr hl he => ⟨step_block hr hl he, fun b hb => ?_⟩, fun s t => step_time, fun s hl he => ?_,
    fun s => step_rst_false⟩
  · rw [step_block hr hl he, hb]
    rfl
  · rw [step_rst_true hl he, s.held_consume_reset]

/-! ### The states that wait for the host -/

/-- Outside a request no step of the block is enabled (R260). -/
theorem enabledStep_of_not_busy {p : Params} {now : Micros} {b : Block} (h : b.busy = false) :
    enabledStep p now b = none := by
  obtain hs | hs := (Block.not_busy_iff b).1 h <;> simp only [enabledStep, hs]

/-- Outside a request the block's turn changes nothing (R260). -/
theorem blockStep_of_not_busy {p : Params} {rx : Bool} {now : Micros} {b : Block} (h : b.busy = false) :
    blockStep p rx now b = .ok b := by
  simp only [blockStep, enabledStep_of_not_busy h]

/-- Settles O45: no step is enabled, and the time does not go back. -/
theorem quiescentStates : Obligations.QuiescentStates := by
  intro s hr hl hs
  refine ⟨fun rx he => ?_, fun t he => ⟨_, step_time hr hl he, rfl, le_timeAfter _ _ _ _⟩⟩
  rw [step_block hr hl he, blockStep_of_not_busy ((Block.not_busy_iff _).2 hs), ← s.consume_blk]
  rfl

/-! ### The deadline test -/

section
variable {p : Params} {rx : Bool} {now : Micros} {b : Block}

/-- The deadline test in natural numbers: 1000 times a 32-bit count of milliseconds does not wrap in 64 bits (R252). -/
theorem deadlineElapsed_iff : deadlineElapsed now b = true ↔ 1000 * b.sess.dlMs.toNat ≤ (now - b.tCall).toNat := by
  have hdeadline : (1000 * b.sess.dlMs.setWidth 64).toNat = 1000 * b.sess.dlMs.toNat := by
    have hlt := b.sess.dlMs.isLt
    have hconst : (1000 : Micros).toNat = 1000 := rfl
    rw [BitVec.toNat_mul, BitVec.toNat_setWidth, hconst]
    omega
  rw [deadlineElapsed, decide_eq_true_eq, BitVec.le_def, hdeadline]

/-- In SEARCHING the block's turn is CS.SEARCH (R250). -/
theorem blockStep_searching (hs : b.state = .searching) : blockStep p rx now b = .ok (csSearch now b) := by
  simp only [blockStep, enabledStep, hs]

/-- CS.SEARCH once the deadline has elapsed (R252). -/
theorem csSearch_timeout (h : 1000 * b.sess.dlMs.toNat ≤ (now - b.tCall).toNat) :
    csSearch now b = b.finish .timeout := if_pos (deadlineElapsed_iff.2 h)

/-- CS.SEARCH before the deadline (R252). -/
theorem csSearch_attempt (h : (now - b.tCall).toNat < 1000 * b.sess.dlMs.toNat) : csSearch now b = b.attemptStart :=
  if_neg fun hd => Nat.not_le.2 h (deadlineElapsed_iff.1 hd)

end

/-- Settles O44: CS.SEARCH on either side of the deadline. -/
theorem searchTestsDeadline : Obligations.SearchTestsDeadline := by
  intro p rx now b hs
  rw [blockStep_searching hs]
  refine ⟨fun hd => congrArg _ (csSearch_timeout hd), fun hd => ⟨_, congrArg _ (csSearch_attempt hd), rfl, rfl,
    fun i => (RawFrame.inv_empty p).unfilled_zero i (Nat.zero_le _), rfl, rfl, rfl, rfl, rfl⟩⟩

/-! ### The transitions of the controller -/

/-- A step may leave the controller state as it is. -/
theorem transitionAllowed_refl (c : CtlState) : transitionAllowed c c = true := by cases c <;> rfl

/-- A reset goes to IDLE from every state. -/
theorem transitionAllowed_idle (c : CtlState) : transitionAllowed c .idle = true := by cases c <;> rfl

/-- A turn of the block takes a transition of the table (R250). -/
theorem BlockMove.transitionAllowed {p : Params} {rx : Bool} {now : Micros} {b t : Block}
    (h : BlockMove p rx now b t) : transitionAllowed b.state t.state = true := by
  cases h with
  | stay | poll | stable | absorbedOne | countedOne | headerFound | sync | shift => exact transitionAllowed_refl _
  | byte hs =>
    rw [hs]
    dsimp only
    split <;> rfl
  | timeout hs | attempt hs | violation hs | earlyZero hs | reject _ hs | acceptShort hs | acceptLong hs =>
    rw [hs]
    rfl

/-- Every change of the block outside reset takes a transition of the table (R250). -/
theorem BlockChange.transitionAllowed {s : State} {t : Block} (h : BlockChange s t) :
    transitionAllowed s.blk.state t.state = true := by
  cases h with
  | same | deadline | rejected | session | snapshot => exact transitionAllowed_refl _
  | misuse _ hb | request hb => obtain hs | hs := (Block.not_busy_iff _).1 hb <;> rw [hs] <;> rfl
  | turn _ _ _ hm => exact hm.transitionAllowed
  | reset => exact transitionAllowed_idle _

/-- Settles O46, from the changes of the block and the reset. -/
theorem controllerTransitions : Obligations.ControllerTransitions := by
  intro s t _ h
  cases hr : s.rst with
  | false => exact (step_blockChange hr h).2.transitionAllowed
  | true =>
    rw [step_blk_of_rst h (.inl hr)]
    exact transitionAllowed_idle _

/-! ### What a turn inside an attempt does not see -/

/-- The block `u` with everything that a turn inside an attempt reads taken from `b`. -/
def Block.withAttemptOf (b u : Block) : Block :=
  { u with
    state := b.state
    recov := b.recov
    frame := b.frame
    cnt := b.cnt
    result := b.result
    sess := { u.sess with accShort := b.sess.accShort, accLong := b.sess.accLong, pol := b.sess.pol } }

@[simp] theorem Block.withAttemptOf_recov (b u : Block) : (b.withAttemptOf u).recov = b.recov := rfl
@[simp] theorem Block.withAttemptOf_frame (b u : Block) : (b.withAttemptOf u).frame = b.frame := rfl
@[simp] theorem Block.withAttemptOf_accShort (b u : Block) : (b.withAttemptOf u).sess.accShort = b.sess.accShort := rfl

/-- A relation between blocks that no turn inside an attempt can see: related blocks agree on what such a turn reads, and
they stay related when the same is written to both, or both abort. -/
structure AttemptBlind (R : Block → Block → Prop) : Prop where
  reads : ∀ {b b'}, R b b' → ∃ u, b' = b.withAttemptOf u
  writes : ∀ {b b'}, R b b' → ∀ st r f c q,
    R { b with state := st, recov := r, frame := f, cnt := c, result := q }
      { b' with state := st, recov := r, frame := f, cnt := c, result := q }
  abort : ∀ {b b'}, R b b' → ∀ k, R (b.abort k) (b'.abort k)

/-- Two turns that go the same way: to related blocks, or to the same fault. -/
inductive SameWay (R : Block → Block → Prop) : Except Fault Block → Except Fault Block → Prop where
  | ok {t t' : Block} (h : R t t') : SameWay R (.ok t) (.ok t')
  | error (f : Fault) : SameWay R (.error f) (.error f)

/-- Where one of two such turns answers a block, the other answers a related one. -/
theorem SameWay.exists_ok {R : Block → Block → Prop} {t : Block} {x : Except Fault Block} (h : SameWay R (.ok t) x) :
    ∃ t', x = .ok t' ∧ R t t' := by
  cases h with
  | ok h => exact ⟨_, rfl, h⟩

/-- CS.SEARCH is enabled in SEARCHING alone (R250). -/
theorem state_of_csSearch_enabled {p : Params} {now : Micros} {b : Block}
    (h : enabledStep p now b = some .csSearch) : b.state = .searching := by
  unfold enabledStep at h
  split at h
  · cases h
  · assumption
  · split at h
    · cases h
    · split at h <;> cases h
    · split at h <;> cases h
  · cases h
  · cases h

namespace AttemptBlind

variable {R : Block → Block → Prop} {p : Params} {rx : Bool} {now : Micros} {b b' : Block}

/-- A one before the synchronization zero (R150). -/
theorem hsOne (hR : AttemptBlind R) (h : R b b') : R (hsOne p b) (hsOne p b') := by
  obtain ⟨u, rfl⟩ := hR.reads h
  unfold Machine.hsOne
  rw [Block.withAttemptOf_recov]
  split_ifs
  · exact hR.writes h _ _ _ _ _
  · exact hR.writes h _ _ _ _ _
  · exact h

/-- One data bit, with the fault of a bit past the target (R170 to R173). -/
theorem accumulate (hR : AttemptBlind R) (h : R b b') (bit : Bool) :
    SameWay R (accumulate p bit b) (accumulate p bit b') := by
  obtain ⟨u, rfl⟩ := hR.reads h
  have hbyte (byte : Byte) : R (completeByte p byte b) (completeByte p byte (b.withAttemptOf u)) := by
    rw [completeByte_eq, completeByte_eq]
    exact hR.writes h _ _ _ _ _
  unfold Machine.accumulate
  rw [Block.withAttemptOf_frame]
  split_ifs
  · exact .ok (hbyte _)
  · exact .ok (hR.writes h _ _ _ _ _)
  · exact .error _

/-- One bit through the header synchronizer (R150 to R153). -/
theorem headerSync (hR : AttemptBlind R) (h : R b b') (bit : Bool) :
    SameWay R (headerSync p bit b) (headerSync p bit b') := by
  have hone := hR.hsOne (p := p) h
  have hdata := hR.accumulate (p := p) h bit
  have hearly := hR.abort h .synchronizationFailure
  obtain ⟨u, rfl⟩ := hR.reads h
  have hsync : R (hsSync b) (hsSync (b.withAttemptOf u)) := hR.writes h _ _ _ _ _
  unfold Machine.headerSync
  rw [Block.withAttemptOf_recov]
  split_ifs
  · exact hdata
  · exact .ok hone
  · exact .ok hearly
  · exact .ok hsync
  · exact .error _

/-- BR.POLL (R131). -/
theorem brPoll (hR : AttemptBlind R) (h : R b b') : R (brPoll rx now b) (brPoll rx now b') := by
  obtain ⟨u, rfl⟩ := hR.reads h
  unfold Machine.brPoll
  rw [Block.withAttemptOf_recov]
  split_ifs
  · exact hR.writes h _ _ _ _ _
  · exact h

/-- BR.SHORT (R132). -/
theorem brShort (hR : AttemptBlind R) (h : R b b') : R (brShort rx now b) (brShort rx now b') := by
  obtain ⟨u, rfl⟩ := hR.reads h
  unfold Machine.brShort
  rw [Block.withAttemptOf_recov]
  split_ifs
  · exact hR.writes h _ _ _ _ _
  · exact hR.abort (hR.writes h _ _ _ _ _) _

/-- BR.LONG (R133). -/
theorem brLong (hR : AttemptBlind R) (h : R b b') : SameWay R (brLong p rx b) (brLong p rx b') := by
  obtain ⟨u, rfl⟩ := hR.reads h
  have hturn : R (brTurn rx b) (brTurn rx (b.withAttemptOf u)) := hR.writes h _ _ _ _ _
  exact hR.headerSync hturn (brBit rx b)

/-- The short decoder (R190 to R200). -/
theorem shortDecode (hR : AttemptBlind R) (h : R b b') : R (shortDecode p b) (shortDecode p b') := by
  have habort := hR.abort h
  obtain ⟨u, rfl⟩ := hR.reads h
  have haccept : R (sdAccept b) (sdAccept (b.withAttemptOf u)) := hR.writes h _ _ _ _ _
  unfold Machine.shortDecode
  rw [Block.withAttemptOf_frame, Block.withAttemptOf_accShort]
  split_ifs
  · exact habort _
  · exact habort _
  · exact habort _
  · exact haccept

/-- The long decoder (R221 to R225). -/
theorem longDecode (hR : AttemptBlind R) (h : R b b') : R (longDecode p b) (longDecode p b') := by
  have habort := hR.abort h .crcMismatch
  obtain ⟨u, rfl⟩ := hR.reads h
  have haccept (pl : Vector Byte 14) : R (ldAccept pl b) (ldAccept pl (b.withAttemptOf u)) := hR.writes h _ _ _ _ _
  unfold Machine.longDecode
  rw [Block.withAttemptOf_frame]
  dsimp only
  split_ifs
  · exact habort
  · exact haccept _

/-- CS.DECODE (R255). -/
theorem csDecode (hR : AttemptBlind R) (h : R b b') : R (csDecode p b) (csDecode p b') := by
  have hshort := hR.shortDecode (p := p) h
  have hlong := hR.longDecode (p := p) h
  obtain ⟨u, rfl⟩ := hR.reads h
  unfold Machine.csDecode
  rw [Block.withAttemptOf_frame]
  cases b.frame.target with
  | short => exact hshort
  | long => exact hlong

/-- Related blocks have the same step enabled (R250). -/
theorem enabledStep_eq (hR : AttemptBlind R) (h : R b b') : enabledStep p now b' = enabledStep p now b := by
  obtain ⟨u, rfl⟩ := hR.reads h
  rfl

/-- The block's turn, if it is not CS.SEARCH or CS.SEARCH does not see the relation either. -/
theorem blockStep (hR : AttemptBlind R) (h : R b b')
    (hsearch : b.state = .searching → R (csSearch now b) (csSearch now b')) :
    SameWay R (blockStep p rx now b) (blockStep p rx now b') := by
  unfold Machine.blockStep
  rw [hR.enabledStep_eq h]
  cases he : enabledStep p now b with
  | none => exact .ok h
  | some step =>
    cases step with
    | csSearch => exact .ok (hsearch (state_of_csSearch_enabled he))
    | brPoll => exact .ok (hR.brPoll h)
    | brShort => exact .ok (hR.brShort h)
    | brLong => exact hR.brLong h
    | csDecode => exact .ok (hR.csDecode h)

end AttemptBlind

/-! ### The deadline inside an attempt -/

/-- Another deadline, and another start of the request, is what no turn inside an attempt sees (R253). -/
theorem attemptBlind_withDeadline (tCall : Micros) (dlMs : Word) :
    AttemptBlind fun b b' => b' = b.withDeadline tCall dlMs where
  reads := by
    rintro b _ rfl
    exact ⟨b.withDeadline tCall dlMs, rfl⟩
  writes := by
    rintro b _ rfl _ _ _ _ _
    rfl
  abort := by
    rintro b _ rfl _
    rfl

/-- Settles O47: in RECEIVING and in DECODING the turn is not CS.SEARCH. -/
theorem deadlineUnreadInAttempt : Obligations.DeadlineUnreadInAttempt := by
  intro p rx now tCall dlMs b t ha h
  have hsearch : b.state ≠ .searching := fun hs => by simp [Block.inAttempt_iff, hs] at ha
  have hway := (attemptBlind_withDeadline tCall dlMs).blockStep (p := p) (rx := rx) (now := now) (b := b) rfl
    fun hs => absurd hs hsearch
  rw [h] at hway
  obtain ⟨_, ht, rfl⟩ := hway.exists_ok
  exact ht

/-! ### The recorded outcome -/

/-- Blocks that differ in the recorded outcome alone. -/
def SameButOutcome (b b' : Block) : Prop := ∃ k, b' = { b with lastAbort := k }

/-- The recorded outcome is what no turn inside an attempt sees (R256, R313). -/
theorem attemptBlind_sameButOutcome : AttemptBlind SameButOutcome where
  reads := by
    rintro b _ ⟨k, rfl⟩
    exact ⟨{ b with lastAbort := k }, rfl⟩
  writes := by
    rintro b _ ⟨k, rfl⟩ _ _ _ _ _
    exact ⟨k, rfl⟩
  abort := by
    rintro b _ ⟨_, rfl⟩ k
    exact ⟨some k, rfl⟩

/-- CS.SEARCH does not see it either: a time-out leaves it, an attempt starts without one (R252). -/
theorem SameButOutcome.csSearch {b b' : Block} (h : SameButOutcome b b') (now : Micros) :
    SameButOutcome (csSearch now b) (csSearch now b') := by
  obtain ⟨k, rfl⟩ := h
  unfold Machine.csSearch
  rw [show deadlineElapsed now { b with lastAbort := k } = deadlineElapsed now b from rfl]
  split_ifs
  · exact ⟨k, rfl⟩
  · exact ⟨none, rfl⟩

/-- No command sees it (46_host_commands.md): REINIT puts it back, and the others leave it. -/
theorem SameButOutcome.effectOf {b b' : Block} (h : SameButOutcome b b') (now : Micros) (i : Instr) :
    SameButOutcome (effectOf now i b) (effectOf now i b') := by
  obtain ⟨k, rfl⟩ := h
  cases i with
  | decodeOnce =>
    refine ⟨k, ?_⟩
    simp only [Machine.effectOf, decodeOnceEffect]
    split_ifs <;> rfl
  | reinit => exact ⟨none, rfl⟩
  | _ => exact ⟨k, rfl⟩

/-- No register shows it (R34 to R45). -/
theorem readReg_lastAbort (r : Reg) (k : Option AttemptOutcome) (b : Block) :
    readReg r { b with lastAbort := k } = readReg r b := by cases r <;> rfl

/-- Nor does the answer to a read (R81). -/
theorem busRead_withGhost (r : BusRequest) (k : Option AttemptOutcome) (s : State) :
    busRead r (s.withGhost k) = (busRead r s).withGhost k := by
  unfold busRead
  rw [State.withGhost_blk, readReg_lastAbort]
  split_ifs <;> rfl

section
variable {p : Params} {s t : State}

/-- A command does the same with another outcome recorded. -/
theorem exec_withGhost {i : Instr} (h : exec i s = .next t) (k : Option AttemptOutcome) :
    ∃ k', exec i (s.withGhost k) = .next (t.withGhost k') := by
  rw [exec_next] at h ⊢
  cases h
  rw [State.withGhost_blk, show Block.busy { s.blk with lastAbort := k } = s.blk.busy from rfl]
  split_ifs
  · have hrel : SameButOutcome (s.blk.setRejected false) (({ s.blk with lastAbort := k } : Block).setRejected false) :=
      ⟨k, rfl⟩
    obtain ⟨k', hk'⟩ := hrel.effectOf s.now i
    exact ⟨k', by rw [State.withGhost_now, hk']; rfl⟩
  · exact ⟨k, rfl⟩

/-- A host access outside reset does the same with another outcome recorded. -/
theorem busAccess_withGhost {r : BusRequest} (hr : s.rst = false) (h : busAccess r s = .next t)
    (k : Option AttemptOutcome) : ∃ k', busAccess r (s.withGhost k) = .next (t.withGhost k') := by
  have hr' : (s.withGhost k).rst = false := hr
  have hm : EventMove Config.params s (.bus r) t := serve_move h
  cases hm with
  | read _ hw =>
    refine ⟨k, ?_⟩
    rw [← busRead_withGhost]
    simp only [busAccess, hw, Bool.false_eq_true, if_false]
  | illegalWrite _ hw hl => exact ⟨k, busAccess_illegal_write hw hl⟩
  | ignoredWrite _ hw hl hi =>
    obtain hrst | ⟨hc, hd⟩ := hi
    · exact absurd (hr.symm.trans hrst) (by decide)
    · refine ⟨k, ?_⟩
      rw [busAccess_legal_write hr' hw hl, writeReg_read_only hc hd]
      rfl
  | deadlineWrite _ hw hl _ hd =>
    refine ⟨k, ?_⟩
    rw [busAccess_legal_write hr' hw hl, hd]
    rfl
  | command _ hw hl _ hc =>
    obtain ⟨k', hk'⟩ := exec_withGhost (exec_next (decode r.wdata) s) k
    refine ⟨k', ?_⟩
    rw [busAccess_legal_write hr' hw hl, hc, writeReg, hk']
    rfl

/-- The block's turn does the same with another outcome recorded. -/
theorem ofBlock_blockStep_withGhost {rx : Bool} (h : ofBlock s (blockStep p rx s.now s.blk) = .next t)
    (k : Option AttemptOutcome) :
    ∃ k', ofBlock (s.withGhost k) (blockStep p rx s.now (s.withGhost k).blk) = .next (t.withGhost k') := by
  have hrel : SameButOutcome s.blk (s.withGhost k).blk := ⟨k, rfl⟩
  have hway := attemptBlind_sameButOutcome.blockStep (p := p) (rx := rx) hrel fun _ => hrel.csSearch s.now
  cases hb : blockStep p rx s.now s.blk with
  | error f =>
    rw [hb] at h
    cases h
  | ok b =>
    rw [hb] at h hway
    cases h
    obtain ⟨_, hb', k', rfl⟩ := hway.exists_ok
    exact ⟨k', by rw [hb']; rfl⟩

/-- Every event outside reset does the same with another outcome recorded. -/
theorem serve_withGhost {e : Event} (hr : s.rst = false) (h : serve p e s = .next t) (k : Option AttemptOutcome) :
    ∃ k', serve p e (s.withGhost k) = .next (t.withGhost k') := by
  cases e with
  | bus r => exact busAccess_withGhost hr h k
  | block rx => exact ofBlock_blockStep_withGhost h k
  | time u =>
    cases h
    exact ⟨k, rfl⟩
  | rst level =>
    cases h
    cases level with
    | false => exact ⟨k, rfl⟩
    | true => exact ⟨none, rfl⟩

end

/-- Settles O56: no invariant of R69 reads the outcome, and the event is served the same. -/
theorem attemptOutcomeInvisible : Obligations.AttemptOutcomeInvisible := by
  intro s t k hr h
  obtain ⟨hl, -⟩ := step_blockChange hr h
  have hl' : (s.withGhost k).blk.lawful Config.params = true := hl
  rw [step_of_lawful_running hr hl] at h
  rw [step_of_lawful_running (s := s.withGhost k) hr hl', State.withGhost, State.consume_withBlk,
    State.nextEvent_withBlk, ← s.consume_blk]
  exact serve_withGhost (s.consume_rst.trans hr) h k

end Sys2Proof.Machine
end

section
/-! PROOFS. The statements of 46_host_commands.md: what each command does and leaves (R280 to R285), which are accepted
(R286), CMD_REJECTED over a run (R287), and the DEADLINE write (R289). A command word's effect on the block is one
function, `commandBlock`, with one lemma for an accepted command and one for a rejected one. What a step does to the
fields that commands alone write is said once, in `step_host_cases`; the statements about steps are read off from it. -/

namespace Sys2Proof.Machine

/-! ### One command -/

/-- A word whose `w[3:0]` is the opcode of a command without operands is that command (R100). -/
theorem decode_eq_of_op {w : Word} {i : Instr} (h : w.extractLsb' 0 4 = i.opcode) (h1 : i.opcode ≠ 1) :
    decode w = i :=
  (Instr.eq_of_opcode (h.symm.trans (decode_opcode w).symm) h1).symm

/-- The accept table by opcode (R286). -/
theorem not_accepts_iff (i : Instr) (busy : Bool) :
    accepts i busy = false ↔ 5 ≤ i.opcode.toNat ∨ (busy = true ∧ i.opcode.toNat ∈ [1, 2, 4]) := by
  cases i <;> simp [accepts, Instr.opcode]

/-- What a command leaves of the block `b` at time `now`: its effect where it is accepted, else CMD_REJECTED = 1. -/
def commandBlock (now : Micros) (i : Instr) (b : Block) : Block :=
  if accepts i b.busy then effectOf now i (b.setRejected false) else b.setRejected true

/-- A command answers a next state in which the block alone has changed. -/
theorem exec_eq_commandBlock (i : Instr) (s : State) :
    exec i s = .next { s with blk := commandBlock s.now i s.blk } := exec_next i s

/-- An accepted command has its effect on the block with CMD_REJECTED = 0 (R286, R287). -/
theorem exec_of_accepts {i : Instr} {s : State} (h : accepts i s.blk.busy = true) :
    exec i s = .next { s with blk := effectOf s.now i (s.blk.setRejected false) } := by
  rw [exec_eq_commandBlock, commandBlock, if_pos h]

/-- A rejected command sets CMD_REJECTED and does nothing else (R286). -/
theorem exec_of_not_accepts {i : Instr} {s : State} (h : accepts i s.blk.busy = false) :
    exec i s = .next { s with blk := s.blk.setRejected true } := by
  rw [exec_eq_commandBlock, commandBlock, if_neg (by simp [h])]

/-- An accepted DECODE_ONCE in no session is the misuse NO_SESSION (R282). -/
theorem decodeOnceEffect_noSession {now : Micros} {b : Block} (hv : b.sess.cfgValid = false) :
    decodeOnceEffect now b = b.clearResult.finish (.misuse .noSession) := if_pos hv

/-- In a session that accepts neither family it is the misuse NO_FAMILY (R282). -/
theorem decodeOnceEffect_noFamily {now : Micros} {b : Block} (hv : b.sess.cfgValid = true)
    (hf : b.sess.accShort = false ∧ b.sess.accLong = false) :
    decodeOnceEffect now b = b.clearResult.finish (.misuse .noFamily) :=
  (if_neg (by simp [hv])).trans (if_pos hf)

/-- In a session that accepts a family it starts a request (R282). -/
theorem decodeOnceEffect_request {now : Micros} {b : Block} (hv : b.sess.cfgValid = true)
    (hf : b.sess.accShort = true ∨ b.sess.accLong = true) :
    decodeOnceEffect now b = { b.clearResult with tCall := now, state := .searching } :=
  (if_neg (by simp [hv])).trans (if_neg (by rintro ⟨ha, hl⟩; simp [ha, hl] at hf))

/-- DECODE_ONCE leaves CMD_REJECTED, the session and the snapshot, whatever it does (R282). -/
theorem decodeOnceEffect_host_fields (now : Micros) (b : Block) :
    (decodeOnceEffect now b).cmdRejected = b.cmdRejected ∧ (decodeOnceEffect now b).sess = b.sess ∧
      (decodeOnceEffect now b).snap = b.snap := by
  obtain ⟨-, h⟩ | ⟨-, -, -, h⟩ | ⟨-, -, h⟩ := decodeOnceEffect_cases now b <;> rw [h] <;> exact ⟨rfl, rfl, rfl⟩

/-! ### What a command leaves of the host's fields -/

/-- No effect of an accepted command sets CMD_REJECTED (R287). -/
theorem effectOf_not_cmdRejected (now : Micros) (i : Instr) {b : Block} (hb : b.cmdRejected = false) :
    (effectOf now i b).cmdRejected = false := by
  cases i with
  | decodeOnce => exact (decodeOnceEffect_host_fields now b).1.trans hb
  | reinit => rfl
  | _ => exact hb

/-- A command leaves CMD_REJECTED as the accept table says, REINIT among them (R286, R287). -/
theorem commandBlock_cmdRejected_iff (now : Micros) (i : Instr) (b : Block) :
    (commandBlock now i b).cmdRejected = true ↔
      5 ≤ i.opcode.toNat ∨ (b.busy = true ∧ i.opcode.toNat ∈ [1, 2, 4]) := by
  rw [← not_accepts_iff, commandBlock]
  cases ha : accepts i b.busy with
  | true =>
    have hclear := effectOf_not_cmdRejected now i (Block.setRejected_cmdRejected false b)
    simp [hclear]
  | false => simp

/-- A part of the block that is not CMD_REJECTED, and that the command's effect leaves, is left by the command. -/
theorem commandBlock_keeps {α : Type} (part : Block → α) (hset : ∀ v b, part (b.setRejected v) = part b)
    {now : Micros} {i : Instr} (heffect : ∀ b, part (effectOf now i b) = part b) (b : Block) :
    part (commandBlock now i b) = part b := by
  unfold commandBlock
  split
  · rw [heffect, hset]
  · exact hset true b

/-- Only START_SESSION and REINIT write the session (R281, R284). -/
theorem commandBlock_sess {i : Instr} (hs : ∀ a l pol, i ≠ .startSession a l pol) (hr : i ≠ .reinit) (now : Micros)
    (b : Block) : (commandBlock now i b).sess = b.sess := by
  refine commandBlock_keeps Block.sess (fun _ _ => rfl) (fun u => ?_) b
  cases i with
  | startSession a l pol => exact absurd rfl (hs a l pol)
  | reinit => exact absurd rfl hr
  | decodeOnce => exact (decodeOnceEffect_host_fields now u).2.1
  | _ => rfl

/-- Only SNAPSHOT and REINIT write the CNT registers (R283, R284). -/
theorem commandBlock_snap {i : Instr} (hs : i ≠ .snapshot) (hr : i ≠ .reinit) (now : Micros) (b : Block) :
    (commandBlock now i b).snap = b.snap := by
  refine commandBlock_keeps Block.snap (fun _ _ => rfl) (fun u => ?_) b
  cases i with
  | snapshot => exact absurd rfl hs
  | reinit => exact absurd rfl hr
  | decodeOnce => exact (decodeOnceEffect_host_fields now u).2.2
  | _ => rfl

/-! ### A step, as the host's fields see it -/

/-- A turn of the block leaves CMD_REJECTED, the session and the snapshot (R287, R37, R283). -/
theorem BlockMove.host_fields {p : Params} {rx : Bool} {now : Micros} {b t : Block} (h : BlockMove p rx now b t) :
    t.cmdRejected = b.cmdRejected ∧ t.sess = b.sess ∧ t.snap = b.snap := by
  cases h with
  | _ => exact ⟨rfl, rfl, rfl⟩

/-- An access that is no legal write at CMD's offset carries no command (R80, R82). -/
theorem bus_ne_commandRequest {r : BusRequest}
    (h : r.we = true → legalAccess r = true → regAt r.addr ≠ .cmd) (w : Word) :
    Event.bus r ≠ .bus (commandRequest w) := by
  rintro ⟨⟩
  exact h rfl (legalAccess_wr .cmd w) (regAt_offset .cmd)

/-- Outside reset a step runs a command, or asserts `rst`, or leaves CMD_REJECTED, the session and the snapshot. -/
theorem step_host_cases {s t : State} (hr : s.rst = false) (h : step s = .next t) :
    (∃ w, s.nextEvent = .bus (commandRequest w) ∧ t.blk = commandBlock s.now (decode w) s.blk) ∨
    (s.nextEvent = .rst true ∧ t.blk = Block.reset) ∨
    ((∀ w, s.nextEvent ≠ .bus (commandRequest w)) ∧ s.nextEvent ≠ .rst true ∧
      t.blk.cmdRejected = s.blk.cmdRejected ∧ t.blk.sess = s.blk.sess ∧ t.blk.snap = s.blk.snap) := by
  obtain ⟨-, hm⟩ := step_move h
  rw [State.held_of_not_rst hr] at hm
  generalize s.nextEvent = e at hm
  cases hm with
  | command r hw hl _ hreg =>
    have hrequest := eq_wr_of_legalAccess hw hl
    rw [hreg] at hrequest
    exact .inl ⟨r.wdata, congrArg Event.bus hrequest, by simp [commandBlock]⟩
  | read r hw => exact .inr (.inr ⟨bus_ne_commandRequest (by simp [hw]), nofun, by simp⟩)
  | illegalWrite r _ hl => exact .inr (.inr ⟨bus_ne_commandRequest (by simp [hl]), nofun, by simp⟩)
  | ignoredWrite r _ _ hi =>
    have hother : regAt r.addr ≠ .cmd := by
      obtain hrst | ⟨hcmd, -⟩ := hi
      · simp [hr] at hrst
      · exact hcmd
    exact .inr (.inr ⟨bus_ne_commandRequest (fun _ _ => hother), nofun, by simp⟩)
  | deadlineWrite r _ _ _ hreg => exact .inr (.inr ⟨bus_ne_commandRequest (by simp [hreg]), nofun, by simp⟩)
  | block rx b hmove => exact .inr (.inr ⟨nofun, nofun, by simpa using hmove.host_fields⟩)
  | time u => exact .inr (.inr ⟨nofun, nofun, by simp⟩)
  | rst level =>
    cases level with
    | false => exact .inr (.inr ⟨nofun, nofun, by simp [State.held]⟩)
    | true => exact .inr (.inl ⟨rfl, rfl⟩)

/-! ### The DEADLINE write -/

/-- Outside reset the host reads the registers of the block as it is. -/
theorem State.window_of_not_rst {s : State} (h : s.rst = false) (r : Reg) : s.window r = readReg r s.blk := by
  rw [State.window, State.held_of_not_rst h]

/-- No register but DEADLINE reads DEADLINE's field. -/
theorem readReg_deadlineStored {r : Reg} (hne : r ≠ .deadline) (v : Word) (b : Block) :
    readReg r { b with deadline := v } = readReg r b := by
  cases r with
  | deadline => exact absurd rfl hne
  | _ => rfl

/-- Settles O10: `write_reg` at DEADLINE stores the value, and every other register reads another field. -/
theorem deadlineWriteOnlyStores : Obligations.DeadlineWriteOnlyStores := by
  intro s v hr hl he
  obtain ⟨-, hwrite, -⟩ := writeRegister s .deadline v hr hl he
  obtain ⟨t, hstep, hresponse, hblk, hrst, hnow⟩ : ∃ t, step s = .next t ∧ t.response = some (.write false) ∧
      t.blk = { s.blk with deadline := v } ∧ t.rst = false ∧ t.now = s.now :=
    ⟨_, hwrite rfl, rfl, rfl, s.consume_rst.trans hr, s.consume_now⟩
  refine ⟨t, hstep, hresponse, ?_, fun r hne => ?_, hblk, hnow⟩
  · rw [State.window_of_not_rst hrst, hblk]
    rfl
  · rw [State.window_of_not_rst hrst, State.window_of_not_rst hr, hblk, readReg_deadlineStored hne]

/-! ### The commands -/

/-- Settles O14: the effect of START_SESSION, its rejection, and no other step that writes the session. -/
theorem startSessionLatches : Obligations.StartSessionLatches := by
  refine ⟨fun w => decode_startSession, fun s a l pol hb => ?_, fun s a l pol hb => ?_, fun s t hr h hrst hcmd => ?_⟩
  · exact ⟨_, exec_of_accepts (by simp [accepts, hb]), rfl, rfl, rfl⟩
  · exact exec_of_not_accepts (by simp [accepts, hb])
  · obtain ⟨w, he, hblk⟩ | ⟨he, -⟩ | ⟨-, -, -, hsess, -⟩ := step_host_cases hr h
    · obtain ⟨hstart, hreinit⟩ := hcmd w he
      rw [hblk, commandBlock_sess hstart hreinit]
    · exact absurd he hrst
    · exact hsess

/-- Settles O16: the effect of SNAPSHOT, and no other step that writes the copies. -/
theorem snapshotCopiesCounters : Obligations.SnapshotCopiesCounters := by
  refine ⟨fun w hw => decode_eq_of_op hw (by decide), fun s => ⟨_, exec_of_accepts rfl, rfl, rfl, rfl, rfl⟩,
    fun s t hr h hrst hcmd => ?_⟩
  obtain ⟨w, he, hblk⟩ | ⟨he, -⟩ | ⟨-, -, -, -, hsnap⟩ := step_host_cases hr h
  · obtain ⟨hsnapshot, hreinit⟩ := hcmd w he
    rw [hblk, commandBlock_snap hsnapshot hreinit]
  · exact absurd he hrst
  · exact hsnap

/-- Settles O19: CMD_REJECTED is 1 exactly for a command that the table does not accept. -/
theorem acceptTable : Obligations.AcceptTable := by
  intro i s
  have hiff := commandBlock_cmdRejected_iff s.now i s.blk
  refine ⟨_, exec_eq_commandBlock i s, hiff, fun hrejected => ?_⟩
  have hnot : accepts i s.blk.busy = false := (not_accepts_iff i _).2 (hiff.1 hrejected)
  simp [commandBlock, hnot, Block.setRejected]

/-- Settles O20: a CMD write sets the bit by the table, `rst` clears it, and no other event writes it. -/
theorem rejectedReflectsLastCommand : Obligations.RejectedReflectsLastCommand := by
  intro s t hr h
  obtain ⟨w, he, hblk⟩ | ⟨he, hblk⟩ | ⟨hcmd, hrst, hrejected, -⟩ := step_host_cases hr h
  · refine ⟨fun w' he' => ?_, fun he' => ?_, fun hcmd => absurd he (hcmd w)⟩
    · obtain rfl : w = w' := by simpa [he, commandRequest] using he'
      rw [hblk, commandBlock_cmdRejected_iff]
    · simp [he] at he'
  · refine ⟨fun w' he' => ?_, fun _ => by rw [hblk]; rfl, fun _ hrst => absurd he hrst⟩
    simp [he] at he'
  · exact ⟨fun w he => absurd he (hcmd w), fun he => absurd he hrst, fun _ _ => hrejected⟩

/-- Settles O13: NOP is accepted in every state, and its effect is none. -/
theorem nopOnlyClearsRejected : Obligations.NopOnlyClearsRejected :=
  ⟨fun _ hw => decode_eq_of_op hw (by decide), fun _ => exec_of_accepts rfl⟩

/-- Settles O15: the rejection, and the effect of DECODE_ONCE in each kind of session. -/
theorem decodeOnceStartsOrMisuses : Obligations.DecodeOnceStartsOrMisuses := by
  refine ⟨fun w hw => decode_eq_of_op hw (by decide), fun s => ?_⟩
  have heffect : s.blk.busy = false →
      exec .decodeOnce s = .next { s with blk := decodeOnceEffect s.now (s.blk.setRejected false) } :=
    fun hb => exec_of_accepts (by simp [accepts, hb])
  refine ⟨fun hb => exec_of_not_accepts (by simp [accepts, hb]), fun hb hv => ?_, fun hb hv hf => ?_,
    fun hb hv hf => ?_⟩
  · rw [heffect hb, decodeOnceEffect_noSession (b := s.blk.setRejected false) hv]
    rfl
  · rw [heffect hb, decodeOnceEffect_noFamily (b := s.blk.setRejected false) hv hf]
    rfl
  · rw [heffect hb, decodeOnceEffect_request (b := s.blk.setRejected false) hv hf]
    rfl

/-- Settles O17: the effect of REINIT is the reset block, whose registers read 0. -/
theorem reinitRestoresReset : Obligations.ReinitRestoresReset := by
  refine ⟨fun w hw => decode_eq_of_op hw (by decide), fun s => ⟨fun hb => ?_, fun hb => ?_⟩⟩
  · exact ⟨_, exec_of_accepts (by simp [accepts, hb]), rfl, readReg_reset⟩
  · exact exec_of_not_accepts (by simp [accepts, hb])

/-- Settles O18: no opcode from 5 on is accepted, and the bus answers a rejected command like any other. -/
theorem reservedOnlyRejects : Obligations.ReservedOnlyRejects := by
  refine ⟨fun w hw => by rwa [decode_opcode], fun i s hi => ?_⟩
  have hexec := exec_of_not_accepts (s := s) ((not_accepts_iff i s.blk.busy).2 (.inl hi))
  exact ⟨hexec, congrArg answerWrite hexec⟩

end Sys2Proof.Machine
end

section
/-! PROOFS. The statement of 60_exceptions.md: no state of the invariant faults (R329). Every host access answers a next
state; of the block's turn only BR.LONG can fault, on a run past the threshold or a bit past the target, and the
invariant excludes both. -/

namespace Sys2Proof.Machine

/-! ### The block's turn -/

/-- A bit faults neither on the run nor on the frame when the run has not passed the threshold and the frame has room
(R54, R69). -/
theorem headerSync_answers {p : Params} {b : Block} (bit : Bool) (hrun : b.recov.run ≤ p.headerThreshold)
    (hroom : b.frame.filled.toNat < b.frame.target.bytes) : ∃ t, headerSync p bit b = .ok t := by
  cases h0 : b.recov.saw0 with
  | true =>
    by_cases hnb : b.frame.nb = 7
    · exact ⟨_, headerSync_data_byte h0 hroom hnb⟩
    · exact ⟨_, headerSync_data_shift h0 hroom hnb⟩
  | false =>
    cases bit with
    | true => exact ⟨_, headerSync_one h0⟩
    | false =>
      by_cases heq : b.recov.run = p.headerThreshold
      · exact ⟨_, headerSync_zero_sync h0 heq⟩
      · exact ⟨_, headerSync_zero_early h0 (BitVec.lt_of_le_ne hrun heq)⟩

/-- BR.LONG is a step of RECEIVING (R133). -/
theorem state_of_brLong_enabled {p : Params} {now : Micros} {b : Block} (h : enabledStep p now b = some .brLong) :
    b.state = .receiving := by
  cases hs : b.state with
  | receiving => rfl
  | _ => simp [enabledStep, hs] at h

/-- Under the invariant the block's turn does not fault: the step that could is BR.LONG, in RECEIVING, where the frame
has room and the run has not passed the threshold (R54, R69). -/
theorem Block.Inv.blockStep_answers {p : Params} {now : Micros} {b : Block} (h : b.Inv p now) (rx : Bool) :
    ∃ t, blockStep p rx now b = .ok t := by
  unfold blockStep
  cases he : enabledStep p now b with
  | none => exact ⟨_, rfl⟩
  | some step =>
    cases step with
    | brLong =>
      have hroom := h.room (state_of_brLong_enabled he)
      exact headerSync_answers (b := brTurn rx b) (brBit rx b) h.run_le hroom
    | csSearch | brPoll | brShort | csDecode => exact ⟨_, rfl⟩

/-! ### The host's accesses -/

/-- A write to a register answers a next state: no command faults, and none is refused (R82, R286). -/
theorem writeReg_answers (r : Reg) (v : Word) (s : State) : ∃ t, writeReg r v s = .next t := by
  by_cases hc : r = .cmd
  · subst hc
    exact ⟨_, exec_next (decode v) s⟩
  · by_cases hd : r = .deadline
    · subst hd
      exact ⟨_, rfl⟩
    · exact ⟨_, writeReg_read_only hc hd v s⟩

/-- A write access answers a next state, legal or not, and whatever `rst` is (R80, R340). -/
theorem busWrite_answers (r : BusRequest) (s : State) : ∃ t, busWrite r s = .next t := by
  unfold busWrite
  split_ifs
  · exact ⟨_, rfl⟩
  · obtain ⟨t, ht⟩ := writeReg_answers (regAt r.addr) r.wdata s
    exact ⟨t.respond (.write false), congrArg answerWrite ht⟩
  · exact ⟨_, rfl⟩

/-- Every host access answers a next state (R80). -/
theorem busAccess_answers (r : BusRequest) (s : State) : ∃ t, busAccess r s = .next t := by
  unfold busAccess
  split_ifs
  · exact busWrite_answers r s
  · exact ⟨_, rfl⟩

/-! ### The step -/

/-- Every event is served where the block has its invariant. -/
theorem serve_answers {p : Params} {s : State} (h : s.blk.Inv p s.now) (e : Event) : ∃ t, serve p e s = .next t := by
  cases e with
  | bus r => exact busAccess_answers r s
  | block rx =>
    obtain ⟨b, hb⟩ := h.blockStep_answers rx
    exact ⟨{ s with blk := b }, congrArg (ofBlock s) hb⟩
  | time u => exact ⟨_, rfl⟩
  | rst level => exact ⟨_, rfl⟩

/-- Settles O53: a state of the invariant breaks no invariant of R69, and serves its next event. -/
theorem noFaultUnderInvariant : Obligations.NoFaultUnderInvariant := by
  intro s hs
  have hlawful : s.held.blk.lawful Config.params = true := hs.held_eq.symm ▸ hs.blk.lawful
  have hinv : s.consume.blk.Inv Config.params s.consume.now := by
    rw [State.consume_blk, State.consume_now]
    exact hs.blk
  rw [step_of_lawful hlawful, hs.held_eq]
  exact serve_answers hinv s.nextEvent

end Sys2Proof.Machine
end

section
/-! PROOFS. The statements of 70_reset_and_hazards.md: the block under `rst` (R340) and a line that never changes (R350).
While BUSY a host access writes no field that the engine or the controller reads (`SameButHostFields`), so a block that
waits for a level is left in its wait by every event but `rst` and a sample at that level; the hang is that step lemma,
and one induction over the listed events. -/

namespace Sys2Proof.Machine

/-! ### The block under `rst` -/

section
variable {s : State}

/-- The reset state, in which the block is held while `rst` is 1, breaks no invariant of R69. -/
theorem State.held_lawful_of_rst (hr : s.rst = true) : s.held.blk.lawful Config.params = true := by
  rw [State.held_blk_of_rst hr]
  exact (Block.inv_reset Config.params_wf s.now).lawful

/-- While `rst` is 1 a step serves the next event on the reset block (R340). -/
theorem step_of_rst (hr : s.rst = true) : step s = serve Config.params s.nextEvent s.held.consume :=
  step_of_lawful (State.held_lawful_of_rst hr)

/-- The block that an event finds while `rst` is 1 is the reset block (R340). -/
theorem State.held_consume_blk_of_rst (hr : s.rst = true) : s.held.consume.blk = Block.reset := by
  rw [State.consume_blk, State.held_blk_of_rst hr]

/-- While `rst` is 1 no step of the block is enabled: its turn changes nothing (R340). -/
theorem step_block_of_rst {rx : Bool} (hr : s.rst = true) (he : s.nextEvent = .block rx) :
    step s = .next s.held.consume := by
  have hidle : s.held.consume.blk.busy = false := by rw [State.held_consume_blk_of_rst hr]; rfl
  rw [step_of_rst hr, he, serve, blockStep_of_not_busy hidle]
  rfl

/-- While `rst` is 1 a read answers the reset value (R340). -/
theorem step_rd_of_rst {r : Reg} (hr : s.rst = true) (he : s.nextEvent = .bus (rd r)) :
    step s = .next (s.held.consume.respond (.read (readReg r Block.reset) false)) := by
  rw [step_of_rst hr, he, serve, busAccess_legal_read rfl (legalAccess_rd r), State.held_consume_blk_of_rst hr, rd,
    regAt_offset]

/-- While `rst` is 1 a legal write is answered and ignored (R340). -/
theorem busAccess_write_of_rst {r : BusRequest} (hr : s.rst = true) (hw : r.we = true) (hl : legalAccess r = true) :
    busAccess r s = .next (s.respond (.write false)) := by
  simp [busAccess, busWrite, hw, hl, hr]

/-- While `rst` is 1 a step that serves a write by register name changes the response alone (R340). -/
theorem step_wr_of_rst {r : Reg} {v : Word} (hr : s.rst = true) (he : s.nextEvent = .bus (wr r v)) :
    step s = .next (s.held.consume.respond (.write false)) := by
  have hrst : s.held.consume.rst = true := by simpa using hr
  rw [step_of_rst hr, he]
  exact busAccess_write_of_rst hrst rfl (legalAccess_wr r v)

end

/-- Settles O22: the assertion, then each event that finds `rst` at 1. -/
theorem heldInReset : Obligations.HeldInReset := by
  refine ⟨fun s hl he => ⟨_, step_rst_true hl he, rfl, rfl, rfl⟩, fun s hr => ?_⟩
  have hblk : s.held.consume.blk = Block.reset := State.held_consume_blk_of_rst hr
  exact ⟨fun rx => step_block_of_rst hr, fun r => step_rd_of_rst hr, fun r v => step_wr_of_rst hr, fun he =>
    ⟨_, step_rst_false (State.held_lawful_of_rst hr) he, rfl, hblk, congrArg Block.state hblk,
      congrArg Block.busy hblk⟩, hblk⟩

/-! ### A host access while BUSY -/

/-- The block `t` is `b` but for the fields that a host access can write while BUSY: DEADLINE, CMD_REJECTED and the CNT
registers (R82, R286). -/
def Block.SameButHostFields (b t : Block) : Prop :=
  ∃ d v c, t = { b with deadline := d, cmdRejected := v, snap := c }

theorem Block.SameButHostFields.refl (b : Block) : b.SameButHostFields b := ⟨_, _, _, rfl⟩

/-- No invariant of R69 reads the host's fields. -/
theorem Block.SameButHostFields.lawful_eq {b t : Block} (h : b.SameButHostFields t) (p : Params) :
    t.lawful p = b.lawful p := by
  obtain ⟨d, v, c, rfl⟩ := h
  rfl

/-- The host's fields are no part of the controller state, of the attempt or of the result. -/
theorem Block.SameButHostFields.attempt_eq {b t : Block} (h : b.SameButHostFields t) :
    t.state = b.state ∧ t.recov = b.recov ∧ t.frame = b.frame ∧ t.result = b.result := by
  obtain ⟨d, v, c, rfl⟩ := h
  exact ⟨rfl, rfl, rfl, rfl⟩

/-- While BUSY only NOP and SNAPSHOT are accepted, so a command writes no field but the host's (R286). -/
theorem commandBlock_of_busy {b : Block} (hb : b.busy = true) (now : Micros) (i : Instr) :
    b.SameButHostFields (commandBlock now i b) := by
  unfold commandBlock
  split
  · rename_i ha
    cases i with
    | startSession | decodeOnce | reinit => simp [accepts, hb] at ha
    | nop | snapshot => exact ⟨_, _, _, rfl⟩
    | _ => nomatch ha
  · exact ⟨_, _, _, rfl⟩

/-- While BUSY a host access, legal or not, is answered and writes no field of the block but the host's (R80 to R83). -/
theorem busAccess_of_busy {s : State} (hb : s.blk.busy = true) (r : BusRequest) :
    ∃ t, busAccess r s = .next t ∧ t.rst = s.rst ∧ t.inputs = s.inputs ∧ s.blk.SameButHostFields t.blk := by
  obtain ⟨t, ht⟩ := busAccess_answers r s
  refine ⟨t, ht, ?_⟩
  have hmove : EventMove Config.params s (.bus r) t := serve_move ht
  cases hmove with
  | read => unfold busRead; split <;> exact ⟨rfl, rfl, .refl _⟩
  | illegalWrite | ignoredWrite => exact ⟨rfl, rfl, .refl _⟩
  | deadlineWrite => exact ⟨rfl, rfl, _, _, _, rfl⟩
  | command => exact ⟨rfl, rfl, commandBlock_of_busy hb _ _⟩

/-! ### A block that waits for a level -/

/-- Outside reset, the machine whose block is in RECEIVING with recovery state `r`. -/
structure State.ReceivesIn (r : Recovery) (s : State) : Prop where
  rst : s.rst = false
  lawful : s.blk.lawful Config.params = true
  state : s.blk.state = .receiving
  recov : s.blk.recov = r

/-- In RECEIVING `done` is 0 (R33). -/
theorem State.ReceivesIn.done_eq {r : Recovery} {s : State} (h : s.ReceivesIn r) : s.done = false := by
  simp [State.done, h.state]

/-- Writing the host's fields leaves the block in RECEIVING with its recovery state. -/
theorem State.ReceivesIn.of_same {r : Recovery} {s t : State} (h : s.ReceivesIn r) (hr : t.rst = false)
    (hb : s.blk.SameButHostFields t.blk) : t.ReceivesIn r := by
  obtain ⟨hstate, hrecov, -, -⟩ := hb.attempt_eq
  exact ⟨hr, (hb.lawful_eq _).trans h.lawful, hstate.trans h.state, hrecov.trans h.recov⟩

/-- A run of any machine takes its first step first. -/
theorem coreRun_succ {M : Host.Core} {s t : M.State} (k : Nat) (h : M.step s = .next t) :
    M.run (k + 1) s = M.run k t := by
  simp only [Host.Core.run, h]

section
variable {r : Recovery} {s : State}

/-- An event that is quiet at the level not awaited leaves a block that waits for a level as it is, but for the host's
fields: a poll goes on waiting, time passes, and a host access is one while BUSY (R131, R350). -/
theorem step_of_quiet (hw : s.ReceivesIn r) (hp : r.ph = .waitLevel)
    (hq : quietAt (!r.expected) s.nextEvent = true) :
    ∃ t, step s = .next t ∧ t.rst = false ∧ t.inputs = s.consume.inputs ∧ s.blk.SameButHostFields t.blk := by
  have hrst : s.consume.rst = false := s.consume_rst.trans hw.rst
  have hsame : s.blk.SameButHostFields s.consume.blk := s.consume_blk.symm ▸ .refl _
  cases he : s.nextEvent with
  | bus req =>
    have hb : s.consume.blk.busy = true := by rw [s.consume_blk, Block.busy_iff, hw.state]; simp
    obtain ⟨t, ht, htrst, hin, hblk⟩ := busAccess_of_busy hb req
    exact ⟨t, (step_bus hw.rst hw.lawful he).trans ht, htrst.trans hrst, hin, s.consume_blk ▸ hblk⟩
  | block rx =>
    have hrx : rx = !r.expected := by simpa [he, quietAt] using hq
    have hne : rx ≠ s.blk.recov.expected := by
      rw [hrx, hw.recov]
      exact Bool.not_ne_self _
    have hturn : blockStep Config.params rx s.now s.blk = .ok s.blk :=
      (pollWaitsForLevel _ _ _ _ hw.state (hw.recov ▸ hp)).2 hne
    obtain ⟨-, hnext⟩ := stepServesBlockTimeAndReset.1 s rx hw.rst hw.lawful he
    exact ⟨_, hnext _ hturn, hrst, rfl, .refl _⟩
  | time u => exact ⟨_, step_time hw.rst hw.lawful he, hrst, rfl, hsame⟩
  | rst level =>
    obtain rfl : level = false := by simpa [he, quietAt] using hq
    have hheld : s.held = s := State.held_of_not_rst hw.rst
    have hstep := step_rst_false (hheld.symm ▸ hw.lawful) he
    rw [hheld] at hstep
    exact ⟨_, hstep, rfl, rfl, hsame⟩

/-- Every number of listed quiet events leaves the block in its wait (R350). -/
theorem run_of_quiet {k : Nat} (hw : s.ReceivesIn r) (hp : r.ph = .waitLevel)
    (hq : s.inputs.all (quietAt !r.expected) = true) (hk : k ≤ s.inputs.length) :
    ∃ t, Sys2Proof.core.run k s = .next t ∧ State.ReceivesIn r t := by
  induction k generalizing s with
  | zero => exact ⟨s, rfl, hw⟩
  | succ k ih =>
    cases hin : s.inputs with
    | nil => simp [hin] at hk
    | cons e es =>
      rw [hin, List.all_cons, Bool.and_eq_true] at hq
      obtain ⟨hhead, htail⟩ := hq
      rw [← State.nextEvent_cons hin] at hhead
      obtain ⟨t, hstep, hrst, hinputs, hblk⟩ := step_of_quiet hw hp hhead
      rw [State.consume_cons hin] at hinputs
      have hrest : k ≤ t.inputs.length := by
        rw [hin] at hk
        rw [hinputs]
        exact Nat.le_of_succ_le_succ hk
      obtain ⟨u, hrun, hu⟩ := ih (hw.of_same hrst hblk) (hinputs ▸ htail) hrest
      exact ⟨u, (coreRun_succ (M := Sys2Proof.core) k hstep).trans hrun, hu⟩

end

/-- Settles O57: one quiet event, and the run of any number of them. -/
theorem stuckLineHangs : Obligations.StuckLineHangs := by
  refine ⟨fun s hr hl hs hp hq => ?_, fun s k hr hl hs hp hq hk => ?_⟩
  · have hw : s.ReceivesIn s.blk.recov := ⟨hr, hl, hs, rfl⟩
    obtain ⟨t, hstep, hrst, -, hblk⟩ := step_of_quiet hw hp hq
    have hwait := hw.of_same hrst hblk
    obtain ⟨-, -, hframe, hresult⟩ := hblk.attempt_eq
    exact ⟨t, hstep, hrst, hwait.lawful, hwait.state, hwait.recov, hframe, hresult, hwait.done_eq⟩
  · obtain ⟨t, hrun, hwait⟩ := run_of_quiet ⟨hr, hl, hs, rfl⟩ hp hq hk
    exact ⟨t, hrun, hwait.state, hwait.recov, hwait.done_eq⟩

/-! ### A line that stays at the level awaited first -/

/-- The long sample of a line at `1 ⊕ P`, before any preamble one: the block awaits `P` next and emits 0, and that zero
is early (R133, R151). -/
theorem blockStep_early_zero {p : Params} {rx : Bool} {now : Micros} {b : Block} (hs : b.state = .receiving)
    (hp : b.recov.ph = .waitLong) (hd : p.longDelayUs ≤ (now - b.recov.tRef).toNat) (h0 : b.recov.saw0 = false)
    (hr : b.recov.run < p.headerThreshold) (hrx : rx = (true ^^ b.sess.pol)) :
    blockStep p rx now b =
      .ok (({ b with recov := { b.recov with expected := b.sess.pol, ph := .waitLevel } } : Block).abort
        .synchronizationFailure) := by
  have hnext : (!rx) = b.sess.pol := by simp [hrx]
  rw [blockStep_waitLong hs hp hd, brLong_eq, hnext, Bool.xor_self]
  exact headerSync_zero_early h0 hr

/-- Settles O58: the poll and the short check find the awaited level, and the long sample emits an early zero. -/
theorem lineAtOppositeLevelAborts : Obligations.LineAtOppositeLevelAborts := by
  intro p b t0 t1 t2 hp hshort hlong
  obtain ⟨hpoll, -⟩ := pollWaitsForLevel p (true ^^ b.sess.pol) t0 b.attemptStart rfl rfl
  obtain ⟨-, hpassed⟩ := shortDelayCheck p (true ^^ b.sess.pol) t1
    { b.attemptStart with recov := { Recovery.fresh b.sess.pol with tRef := t0, ph := .waitShort } } rfl rfl
  obtain ⟨hstable, -⟩ := hpassed hshort
  exact ⟨_, _, _, hpoll rfl, hstable rfl,
    blockStep_early_zero rfl rfl hlong rfl (Params.threshold_pos hp) rfl, rfl, rfl, rfl, rfl, rfl⟩

end Sys2Proof.Machine
end
